-- ==== Sys2Proof/Word.lean ====
section
/-! DEFINITION. The word type of the control link (12 R183): everything on the wire is bytes. -/

namespace Sys2Proof

/-- One byte on RXD or TXD. -/
abbrev Byte := BitVec 8

end Sys2Proof
end

