-- ==== Sys2Proof/Syntax.lean ====
section
/-! DEFINITION. The commands: one constructor per row of spec/opcode_table.json, in the table's order.
The table gives its rows no operands. A constructor's operands are what comes from OUTSIDE the part with the
event (notes/assumptions/4.md); what a request carries lies in the request queue of the state. -/

namespace Sys2Proof

/-- A command, that is one step of spec/95_what_each_step_holds.md. -/
inductive Instr where
  /-- Bytes arrive on RXD one after another, with no gap and good stop bits (R184). -/
  | frameReceived (bytes : List Byte)
  /-- More than 20 ms pass inside a frame (R184). -/
  | frameGapTimeout
  /-- A byte with its stop bit low (R184). -/
  | framingError
  /-- The head request, of a kind that is none of the 19, is taken (R186). -/
  | badKind
  /-- The head request, a STATUS, is taken (R179). -/
  | status
  /-- The head request, a TIME_SET, is taken (R62, R63). -/
  | timeSet
  /-- The head request, a CONFIG_SET, is taken (R189). -/
  | configSet
  /-- The configuration write of a CONFIG_SET ends, verified or not (R189). -/
  | configWriteEnd (verified : Bool)
  /-- The head request, a CONFIG_GET, is taken (R190). -/
  | configGet
  /-- The head request, a WINDOW_SET, is taken (R55). -/
  | windowSet
  /-- The configuration write of a WINDOW_SET ends, verified or not (R55, R56). -/
  | windowWriteEnd (verified : Bool)
  /-- The head request, an UPLOAD_BEGIN, is taken (R34). -/
  | uploadBegin
  /-- The target bank's erase ends, verified or not (R34, R41). -/
  | bankEraseEnd (verified : Bool)
  /-- The FILLING header write ends, verified or not (R34, R41). -/
  | fillingHeaderWriteEnd (verified : Bool)
  /-- The head request, a TRIP_BLOCK, is taken (R35). -/
  | tripBlock
  /-- The trip block write ends, verified or not (R36, R41). -/
  | tripBlockWriteEnd (verified : Bool)
  /-- The head request, an UPLOAD_COMMIT, is taken (R38). -/
  | uploadCommit
  /-- The VALID header write ends, verified or not (R38, R41). -/
  | commitHeaderWriteEnd (verified : Bool)
  /-- The head request, an UPLOAD_ABORT, is taken (R39). -/
  | uploadAbort
  /-- The upload idle timer expires (R40). -/
  | uploadIdleTimeout
  /-- The head request, a PREDICT, is taken (R45). -/
  | predict
  /-- The head request, a NOTICE_POST, is taken (R107, R108). -/
  | noticePost
  /-- The head request, a NOTICE_WITHDRAW, is taken (R109). -/
  | noticeWithdraw
  /-- The head request, a TEXT_PUT, is taken (R97). -/
  | textPut
  /-- The text write ends, verified or not (R97, R99). -/
  | textWriteEnd (verified : Bool)
  /-- The head request, a GLYPH_PUT, is taken (R98). -/
  | glyphPut
  /-- The glyph write ends, verified or not (R98, R99). -/
  | glyphWriteEnd (verified : Bool)
  /-- The head request, a BOARD_READ, is taken (R180). -/
  | boardRead
  /-- The head request, a FAULT_READ, is taken (R176). -/
  | faultRead
  /-- The head request, a FAULT_CLEAR, is taken (R175). -/
  | faultClear
  /-- The head request, a CLEAN_NOW, is taken (R191). -/
  | cleanNow
  /-- The head request, a RESET, is taken (R192). -/
  | reset
  /-- The RESET reply has been sent in full: the request reset takes effect (R192). -/
  | requestReset
  /-- The second phase completes a whole second (R60). -/
  | secondEvent
  /-- The sweep timer expires (R12, R110). -/
  | sweep
  /-- The supply-sample timer expires; the readings of VSTORE in mV and TSENSE in degrees (R137). -/
  | supplySample (millivolts celsius : Int)
  /-- The rotation timer expires (R113). -/
  | rotation
  /-- The rise timer expires; the level of BGOOD (R158). -/
  | riseExpiry (bgood : Bool)
  /-- The retry pause timer expires (R159). -/
  | retryPauseExpiry
  /-- The linger timer expires (R160). -/
  | lingerExpiry
  /-- A 20 ms frame ends (R165, R166, R167). -/
  | frameEnd
  /-- The identity exchange ends: the module's width and height, or no answer (R170). -/
  | identityExchange (answer : Option (Byte × Byte))
  /-- The comparator falls from ABOVE to BELOW (R161). -/
  | brownout
  /-- The comparator rises from BELOW to ABOVE (R161). -/
  | supplyLevelRise
  /-- Power is restored: the straps, the comparator and the readings of the first sample (R193, R194). -/
  | powerOnReset (br1 br0 above : Bool) (millivolts celsius : Int)
  /-- The RESET line falls (R193). -/
  | lineResetAssert
  /-- The RESET line rises: the straps, the comparator and the readings of the first sample (R193, R194). -/
  | lineResetRelease (br1 br0 above : Bool) (millivolts celsius : Int)
  /-- The storage falls below the level the logic needs (R168). -/
  | powerLoss
  /-- One second of the crystal (R118). -/
  | elapsedSecond
  /-- The transmitter has sent a reply whole (R187). -/
  | replySent
  deriving DecidableEq, Repr

end Sys2Proof
end

