-- ==== Sys2Proof/Decode.lean ====
section
/-! DEFINITION. Decoding a word of the opcode table. The part is a block: no row of spec/opcode_table.json
gives its command any bits ("fields" is empty on every row, and 98_reader.md counts no row with fixed bits), so no
word spells a command. The bits of a request frame are read by the receiver (Machine/Link.lean). -/

namespace Sys2Proof

/-- The command that a word of `nbits` bits spells by the table's bits: none, for every word. -/
def decodeTableWord (_nbits _w : Nat) : Option Instr := none

end Sys2Proof
end

