-- ==== Sys2Proof/Machine/Types.lean ====
section
/-! DEFINITION. The plain data of the fourteen blocks, one group of types per block, in the manual's names. -/

namespace Sys2Proof.Machine

/-! ### Flash Store -/

/-- One stored item of the Flash Store with its own check: erased, present with a check that passes, or
present with a check that fails (R42, R96, R100, R194). -/
inductive Item (α : Type) where
  | erased
  | good (contents : α)
  | bad
  deriving DecidableEq, Repr, Inhabited

/-- A trip record of a bank (R28). -/
structure Trip where
  route : Nat
  trip : Nat
  minute : Nat
  dest : Nat
  platform : Nat
  deriving DecidableEq, Repr, Inhabited

/-- The two timetable banks. -/
inductive BankId where
  | a
  | b
  deriving DecidableEq, Repr, Inhabited

/-- A bank's stored header (R29). -/
inductive Header where
  | filling (date count : Nat) (check : BitVec 16) (commit : Nat)
  | valid (date count : Nat) (check : BitVec 16) (commit : Nat)
  deriving DecidableEq, Repr, Inhabited

/-- A bank as it stands in flash: its header and its trip records in bank order (R28, R29). -/
structure StoredBank where
  header : Item Header
  trips : List Trip
  deriving DecidableEq, Repr, Inhabited

/-- A stop window (R48). `platform` none is KEEP, and is what an exclusion window holds (R55). -/
structure Window where
  enabled : Bool
  base : BitVec 16
  mask : BitVec 16
  platform : Option Nat
  deriving DecidableEq, Repr, Inhabited

/-- The configuration record: P01 to P43 at places 0 to 42 in the 4-byte coding of R188, and the windows
W0 to W5, X0, X1 at places 0 to 7. -/
structure ConfigRecord where
  params : Vector (BitVec 32) 43
  windows : Vector Window 8
  deriving DecidableEq, Repr, Inhabited

/-- A glyph entry (R94). Each of the 28 rows has its leftmost pixel in the most significant bit; the bits
beyond the width are 0, light (R98). -/
structure Glyph where
  width : Nat
  rows : List (BitVec 40)
  deriving DecidableEq, Repr, Inhabited

/-- The Flash Store's items. A table lists its items that are not erased, by rising place. -/
structure Flash where
  config : Item ConfigRecord
  bankA : StoredBank
  bankB : StoredBank
  texts : List (Nat × Item (List Nat))
  glyphs : List (Nat × Item Glyph)
  deriving DecidableEq, Repr, Inhabited

/-- The presence maps (R96): the text ids and glyph codes that are present, rising. -/
structure Presence where
  texts : List Nat
  glyphs : List Nat
  deriving DecidableEq, Repr, Inhabited

/-- A flash write in progress for the request at the head of the queue (R34, R36, R38, R55, R97, R98, R189). -/
inductive FlashWrite where
  | config (id : Nat) (value : BitVec 32)
  | window (index : Nat) (settings : Window)
  | bankErase (target : BankId) (date : Nat)
  | fillingHeader (target : BankId) (date : Nat)
  | tripBlock (trips : List Trip)
  | commitHeader (target : BankId) (date count : Nat) (check : BitVec 16) (commit : Nat)
  | text (id : Nat) (codes : List Nat)
  | glyph (code : Nat) (entry : Glyph)
  deriving DecidableEq, Repr

/-! ### Timetable Store -/

/-- The states of a bank (R30). -/
inductive BankState where
  | free
  | filling
  | valid
  deriving DecidableEq, Repr, Inhabited

/-- The roles a valid bank may hold (R32). -/
inductive Role where
  | current
  | next
  deriving DecidableEq, Repr, Inhabited

/-- Which bank holds each role, if one does (R32, R43). -/
structure Roles where
  current : Option BankId
  next : Option BankId
  deriving DecidableEq, Repr, Inhabited

/-- A bank record in working memory (R29). -/
structure BankRecord where
  state : BankState
  date : Nat
  count : Nat
  check : BitVec 16
  commit : Nat
  role : Option Role
  deriving DecidableEq, Repr, Inhabited

/-- An OPEN upload context (R34). -/
structure Upload where
  target : BankId
  date : Nat
  expected : Nat
  trips : Nat
  lastMinute : Option Nat
  check : BitVec 16
  deriving DecidableEq, Repr, Inhabited

/-- The Timetable Store: the bank records, the reuse flag, and the upload context (none is CLOSED). -/
structure Store where
  bankA : BankRecord
  bankB : BankRecord
  reuse : Bool
  upload : Option Upload
  deriving DecidableEq, Repr, Inhabited

/-! ### Service Clock and Interval Timers -/

/-- What a RUNNING clock holds (R59). -/
structure ClockTime where
  second : Nat
  date : Nat
  dayStart : Nat
  deriving DecidableEq, Repr, Inhabited

/-- The Service Clock: `time` none is UNSET, where second, date and D hold no value (R59). -/
structure Clock where
  time : Option ClockTime
  phase : Nat
  deriving DecidableEq, Repr, Inhabited

/-- The modes of an interval timer (R67). -/
inductive TimerMode where
  | oneShot
  | periodic
  deriving DecidableEq, Repr, Inhabited

/-- An interval timer (R67), its counts in its own unit (seconds; milliseconds for rise and retry pause). -/
structure Timer where
  remaining : Nat
  reload : Nat
  mode : TimerMode
  running : Bool
  deriving DecidableEq, Repr, Inhabited

/-- The seven interval timers (R68). -/
structure Timers where
  sweep : Timer
  sample : Timer
  rotation : Timer
  linger : Timer
  upload : Timer
  rise : Timer
  retry : Timer
  deriving DecidableEq, Repr, Inhabited

/-! ### Departure Board -/

/-- Where a board entry came from (R1). -/
inductive Origin where
  | current
  | next
  | extra
  deriving DecidableEq, Repr, Inhabited

/-- The states of a board entry (R3). -/
inductive EntryState where
  | planned
  | live
  | lapsed
  | cancelled
  deriving DecidableEq, Repr, Inhabited

/-- A predicted second with its stamp, present together (R1). -/
structure Prediction where
  second : Int
  stamp : Int
  deriving DecidableEq, Repr, Inhabited

/-- The key of a departure (R1). -/
structure Key where
  route : Nat
  trip : Nat
  deriving DecidableEq, Repr, Inhabited

/-- A board entry (R1). -/
structure Entry where
  key : Key
  origin : Origin
  dest : Nat
  platform : Nat
  sched : Option Int
  pred : Option Prediction
  state : EntryState
  deriving DecidableEq, Repr, Inhabited

/-- A gone-list record (R7). -/
structure Gone where
  key : Key
  expiry : Int
  deriving DecidableEq, Repr, Inhabited

/-- The Departure Board: entries by position, gone list oldest first. -/
structure Board where
  entries : List Entry
  gone : List Gone
  deriving DecidableEq, Repr, Inhabited

/-! ### Composer -/

/-- The two message texts of a MESSAGE row (R76): P14 and P15. -/
inductive MessageText where
  | noDepartures
  | timeUnknown
  deriving DecidableEq, Repr, Inhabited

/-- A row record, by mode, with the fields that R75 says are present in that mode. -/
inductive RowRecord where
  | empty
  | countdown (key : Key) (shown : Nat) (pending : Option Nat)
  | clockTime (key : Key) (minute : Nat)
  | due (key : Key)
  | cancelled (key : Key)
  | message (text : MessageText)
  deriving DecidableEq, Repr, Inhabited

/-- The 1,600 pixels of a tile, row 0 first, leftmost pixel first, from the most significant bit down; 1 is
dark (R90). -/
abbrev TilePixels := BitVec 1600

/-- A tile's 32-bit signature (R90). -/
abbrev Signature := BitVec 32

/-- The Composer: one row record per departure row, and per tile the pixels of its wanted image (R91). -/
structure Composer where
  rows : List RowRecord
  pixels : List (Option TilePixels)
  deriving DecidableEq, Repr, Inhabited

/-! ### Notice List -/

/-- A notice's end (R106). -/
structure NoticeEnd where
  date : Nat
  second : Nat
  deriving DecidableEq, Repr, Inhabited

/-- A notice (R106). Its posting order number is its place in the list. -/
structure Notice where
  id : Nat
  text : Nat
  priority : Nat
  ends : Option NoticeEnd
  deriving DecidableEq, Repr, Inhabited

/-- The Notice List: the notices in posting order, and the rotation position (R106). -/
structure Notices where
  list : List Notice
  position : Option Nat
  deriving DecidableEq, Repr, Inhabited

/-! ### Tile Map and Refresh Queue -/

/-- A tile record (R116). -/
structure Tile where
  shown : Option Signature
  wanted : Option Signature
  ghost : Nat
  clearDue : Bool
  job : Option Nat
  deriving DecidableEq, Repr, Inhabited

/-- The classes of a job (R118). -/
inductive JobClass where
  | noticeUrgent
  | row
  | notice
  | clock
  | clean
  deriving DecidableEq, Repr, Inhabited

/-- The two drive modes, PARTIAL and FULL (R118). -/
inductive DriveMode where
  | partialMode
  | fullMode
  deriving DecidableEq, Repr, Inhabited

/-- The states of a job (R119). -/
inductive JobState where
  | queued
  | granted
  | driving
  deriving DecidableEq, Repr, Inhabited

/-- A refresh job (R118). The full clean is the job of class CLEAN: it covers every row. -/
structure Job where
  num : Nat
  cls : JobClass
  mode : DriveMode
  row : Nat
  first : Nat
  last : Nat
  enqueue : Nat
  state : JobState
  snapshot : List (Option Signature)
  deriving DecidableEq, Repr, Inhabited

/-- The Tile Map: the applied geometry, one record per tile row by row, the refresh queue, and the
elapsed-second count (R116, R118). -/
structure TileMap where
  wt : Nat
  ht : Nat
  tiles : List Tile
  jobs : List Job
  elapsed : Nat
  deriving DecidableEq, Repr, Inhabited

/-! ### Energy Account -/

/-- The Energy Account (R136, R139, R143, R144, R146, R147). -/
structure Energy where
  vs : Option Nat
  temp : Option Int
  estimate : Nat
  conserve : Bool
  lowFlag : Bool
  window : Bool
  duty : Nat
  deriving DecidableEq, Repr, Inhabited

/-! ### Panel Drive -/

/-- The booster states (R156). -/
inductive Booster where
  | off
  | rising
  | ready
  | driving
  deriving DecidableEq, Repr, Inhabited

/-- Which identity exchange is in progress (R170, R171). -/
inductive Exchange where
  | startUp
  | clean
  deriving DecidableEq, Repr, Inhabited

/-- Events the Panel Drive takes after an identity exchange in progress (R170, notes/assumptions/9.md). -/
inductive DriveEvent where
  | brownout
  | supplyRise
  | lingerExpiry
  | frameEnd
  | requestReset
  deriving DecidableEq, Repr, Inhabited

/-- The image sent to the panel module at the start of a drive (R164). -/
structure SentImage where
  mode : DriveMode
  row : Nat
  first : Nat
  last : Nat
  tiles : List TilePixels
  deriving DecidableEq, Repr, Inhabited

/-- The Panel Drive (R155). -/
structure Drive where
  booster : Booster
  ben : Bool
  granted : Option Nat
  frameCount : Nat
  framesDriven : Nat
  retriesUsed : Nat
  supplyAbove : Bool
  cutFrame : Bool
  brownedOut : Bool
  exchange : Option Exchange
  held : List DriveEvent
  sent : Option SentImage
  deriving DecidableEq, Repr, Inhabited

/-! ### Fault Unit -/

/-- The nine fault classes (R172), in the bit order of R179. -/
inductive FaultClass where
  | store
  | panel
  | booster
  | drive
  | temp
  | content
  | timetable
  | clock
  | supply
  deriving DecidableEq, Repr, Inhabited

/-- The faults, by detail code (R172). -/
inductive FaultCode where
  | store101 | store102 | store103 | store104 | store105 | store106
  | panel201 | panel202
  | booster301
  | drive311 | drive312
  | temp401 | temp402
  | content501 | content502 | content503
  | timetable601 | timetable602
  | clock701 | clock702
  | supply801
  deriving DecidableEq, Repr, Inhabited

/-- A fault record's stamp: service date and wall second (R174). -/
structure Stamp where
  date : Nat
  wall : Nat
  deriving DecidableEq, Repr, Inhabited

/-- A fault record; `stamp` none is the mark "unset" (R174). -/
structure FaultRecord where
  code : FaultCode
  stamp : Option Stamp
  deriving DecidableEq, Repr, Inhabited

/-- The reset causes (R174). -/
inductive ResetCause where
  | power
  | line
  | request
  deriving DecidableEq, Repr, Inhabited

/-- The Fault Unit. The two sets are kept in the bit layout of R179. -/
structure FaultUnit where
  latched : BitVec 16
  first : Option FaultRecord
  last : Option FaultRecord
  count : Nat
  news : BitVec 16
  cause : ResetCause
  deriving DecidableEq, Repr, Inhabited

/-! ### Control Link -/

/-- A request (R183, R185). -/
structure Request where
  kind : Byte
  tag : Byte
  payload : List Byte
  deriving DecidableEq, Repr, Inhabited

/-- A reply: kind already plus 128, tag, and the payload with its common header (R187). -/
structure Reply where
  kind : Byte
  tag : Byte
  payload : List Byte
  deriving DecidableEq, Repr, Inhabited

/-- The receiver (R184): HUNT, or FRAME with the bytes after the marker so far. -/
inductive Receiver where
  | hunt
  | frame (bytes : List Byte)
  deriving DecidableEq, Repr, Inhabited

/-- The Control Link (R184, R185, R187, R192, R193). -/
structure Link where
  receiver : Receiver
  requests : List Request
  write : Option FlashWrite
  resetAfter : Option Nat
  replies : List Reply
  br1 : Bool
  br0 : Bool
  deriving DecidableEq, Repr

/-- Whether the part is without power, held in reset, in start-up with the identity answer awaited, or
running (R168, R193, R194). -/
inductive Phase where
  | off
  | held
  | startUp
  | running
  deriving DecidableEq, Repr, Inhabited

end Sys2Proof.Machine
end

