-- ==== Sys2Proof/Config.lean ====
section
/-! DEFINITION. What is fixed for the part, and the free values: constants with no body, of which nothing can be
proved, for what the spec leaves open. -/

namespace Sys2Proof

open Machine

/-! ### Defaults (R57, R163, R188) -/

/-- The default of each parameter, P01 first (R188); a waveform pair is partial × 256 + full (R163). -/
def Config.defaultParams : Vector (BitVec 32) 43 :=
  #v[16, 9, 0, 255, 180, 90, 30, 480, 20, 1,
     1, 2, 3, 4, 5, 5, 20, 240, 500, 2500,
     4, 10, 150, 40, 50, 2, 15, 20000, 100000, 200000,
     30 * 256 + 60, 24 * 256 + 48, 18 * 256 + 40, 14 * 256 + 32,
     12 * 256 + 24, 10 * 256 + 20, 8 * 256 + 18, 8 * 256 + 16,
     6, 1080, 360, 160, 40]

/-- A window at its default (R57). -/
def Config.defaultWindow : Window := ⟨false, 0x0000, 0xFFFF, none⟩

/-- The configuration a start-up loads when the record fails its check or was never written (R194). -/
def Config.defaults : ConfigRecord := ⟨Config.defaultParams, Vector.replicate 8 Config.defaultWindow⟩

/-! ### Free values

Each is applied to the counter `freeCount` of the state, which advances at every use. -/

/-- What a configuration write that failed its verification leaves in flash: the parameters of a record that passes its check, or no
such record (R56, R189, R194). The windows of one that passes are stated by R58 (`leftConfig`). -/
opaque Config.configLeft : Nat → Option (Vector (BitVec 32) 43)

/-- What a bank erase that failed its verification leaves in flash (R41). -/
opaque Config.bankLeft : Nat → StoredBank

/-- The trip count that a FILLING header holds (R29 gives it the field and no value). -/
opaque Config.fillingCount : Nat → Fin 1201

/-- The bank check that a FILLING header holds (R29 gives it the field and no value). -/
opaque Config.fillingCheck : Nat → BitVec 16

/-- The commit number that a FILLING header holds (R29 gives it the field and no value). -/
opaque Config.fillingCommit : Nat → BitVec 16

/-- The header that a failed FILLING or VALID header write leaves (R41). -/
opaque Config.headerLeft : Nat → Item Header

/-- The trip records that a failed or cut trip block write leaves (R41). -/
opaque Config.tripsLeft : Nat → List Trip

/-- What a text write that failed its verification leaves (R99). -/
opaque Config.textLeft : Nat → Item (List Nat)

/-- What a glyph write that failed its verification leaves (R99). -/
opaque Config.glyphLeft : Nat → Item Glyph

/-- VSTORE in mV at the moment a new P20 moves the comparator's threshold (R161). -/
opaque Config.storageVoltage : Nat → Int

/-- Whether a table item whose write was cut reads as erased; it fails its check otherwise (R99). -/
opaque Config.cutItemErased : Nat → Bool

/-- The elapsed-second count that follows 4,294,967,295 (R118 gives the range and no successor). -/
opaque Config.elapsedAfterTop : BitVec 32

/-- Whether bank A is the later-committed of two VALID banks of one date when neither commit number is one
more than the other's (R29 speaks of the other case alone). -/
opaque Config.bankALater : Nat → Nat → Bool

end Sys2Proof
end

