-- ==== Sys2Proof/Machine/State.lean ====
section
/-! DEFINITION. The state of the part, the reasons a step could stop, and the machine right after reset. -/

namespace Sys2Proof.Machine

/-- Faults. The manual names no event that stops the part without an effect: its faults are records of the
Fault Unit (R174). So no meaning raises a fault, and the type has no constructor (safe). -/
inductive Fault
  deriving DecidableEq, Repr

/-- Refusals. -/
inductive Refusal where
  /-- Raised by `exec` alone, for a command that has no meaning yet; safe. No arm of `exec` uses it. -/
  | notModelled (mnemonic : String)
  deriving DecidableEq, Repr

/-- The whole part: one group of fields per block, the model's own three fields, and the queue of commands. -/
structure State where
  /-- R168, R193, R194. -/
  phase : Phase
  /-- The RESET input is held low (R193). -/
  lineLow : Bool
  /-- Control Link (R184, R185, R187). -/
  link : Link
  /-- Flash Store, the stored items (R188, R29, R96). -/
  flash : Flash
  /-- Flash Store, the presence maps (R96). -/
  presence : Presence
  /-- The parameters and windows in force (R188, R58). -/
  cfg : ConfigRecord
  /-- Timetable Store (R29, R34). -/
  store : Store
  /-- Timetable Store, the roles held when the RESET request in hand was taken (R43); none while no RESET is in hand. -/
  resetRoles : Roles
  /-- Service Clock (R59). -/
  clock : Clock
  /-- Interval Timers (R67, R68). -/
  timers : Timers
  /-- Departure Board (R2, R7). -/
  board : Board
  /-- Composer (R75, R91). -/
  composer : Composer
  /-- Notice List (R106). -/
  notices : Notices
  /-- Tile Map and Refresh Queue (R116, R118). -/
  tiles : TileMap
  /-- Energy Account (R136 to R147). -/
  energy : Energy
  /-- Panel Drive (R155). -/
  drive : Drive
  /-- Fault Unit (R174). -/
  faults : FaultUnit
  /-- The model's own: how many free values have been used. -/
  freeCount : Nat
  /-- The model's own: which block moves next where the spec leaves the order open. -/
  schedule : List Bool
  /-- The model's own: a grant attempt event that has reached the arbiter and is not yet taken. -/
  attemptWaiting : Bool
  /-- The commands that are waiting, first in, first out. -/
  pending : List Instr
  deriving DecidableEq, Repr

/-! ### Reset values of the blocks -/

/-- No item written since the part was made. -/
def Flash.neverWritten : Flash :=
  ⟨.erased, ⟨.erased, []⟩, ⟨.erased, []⟩, [], []⟩

/-- An empty queue, a receiver in HUNT and a transmitter with nothing to send (R193). -/
def Link.afterReset : Link := ⟨.hunt, [], none, none, [], false, false⟩

/-- A bank record that is FREE with no role. -/
def BankRecord.freeRecord : BankRecord := ⟨.free, 0, 0, 0, 0, none⟩

/-- No role, reuse flag clear, upload CLOSED (R43). -/
def Store.afterReset : Store := ⟨.freeRecord, .freeRecord, false, none⟩

/-- A STOPPED timer of the given mode and reload value (R71). -/
def Timer.stopped (mode : TimerMode) (reload : Nat) : Timer := ⟨0, reload, mode, false⟩

/-- The seven timers STOPPED (R71), with the periods of R68 for a configuration record: P22, P16, P27, P25
(places 21, 15, 26, 24), and the fixed 10 s, 600 s and 100 ms. -/
def Timers.afterReset (cfg : ConfigRecord) : Timers where
  sweep := .stopped .periodic 10
  sample := .stopped .periodic (cfg.params.getD 21 0).toNat
  rotation := .stopped .periodic ((cfg.params.getD 15 0).toNat * 60)
  linger := .stopped .oneShot (cfg.params.getD 26 0).toNat
  upload := .stopped .oneShot 600
  rise := .stopped .oneShot (cfg.params.getD 24 0).toNat
  retry := .stopped .oneShot 100

/-- A tile record as the resets and the geometry rebuild leave it (R129, R134), with a job reference. -/
def Tile.unknown (job : Option Nat) : Tile := ⟨none, none, 0, false, job⟩

/-- The Tile Map after a power-on or line reset at a geometry (R134). -/
def TileMap.afterReset (wt ht : Nat) : TileMap :=
  ⟨wt, ht, List.replicate (wt * ht) (.unknown none), [], 0⟩

/-- The Composer after a power-on or line reset: Nr = Ht − 2 EMPTY row records, no pixels (R92). -/
def Composer.afterReset (wt ht : Nat) : Composer :=
  ⟨List.replicate (ht - 2) .empty, List.replicate (wt * ht) none⟩

/-- R153. -/
def Energy.afterReset : Energy := ⟨none, none, 0, false, false, false, 0⟩

/-- R155; the supply level until it is read afresh from the comparator is BELOW (notes/assumptions/19.md). -/
def Drive.afterReset : Drive :=
  ⟨.off, false, none, 0, 0, 0, false, false, false, none, [], none⟩

/-- R182, for a cause. -/
def FaultUnit.afterReset (cause : ResetCause) : FaultUnit := ⟨0, none, none, 0, 0, cause⟩

/-- Every block at its values after a power-on or line reset, with the given items in flash (R26, R43, R70, R71, R92, R115, R134, R153,
R155, R182, R193). Two things are the model's choice, where the spec gives only what start-up makes of them: the presence maps are
empty until start-up builds them (R96, R100, notes/assumptions/60.md), and the default configuration is in force, with its geometry
of 16 by 9 and its timer reload values, until step 1 of start-up loads the record (R194, notes/assumptions/64.md). -/
def State.cleared (fl : Flash) (phase : Phase) (cause : ResetCause) : State where
  phase := phase
  lineLow := false
  link := .afterReset
  flash := fl
  presence := ⟨[], []⟩
  cfg := Config.defaults
  store := .afterReset
  resetRoles := ⟨none, none⟩
  clock := ⟨none, 0⟩
  timers := .afterReset Config.defaults
  board := ⟨[], []⟩
  composer := .afterReset 16 9
  notices := ⟨[], none⟩
  tiles := .afterReset 16 9
  energy := .afterReset
  drive := .afterReset
  faults := .afterReset cause
  freeCount := 0
  schedule := []
  attemptWaiting := false
  pending := []

/-- The machine right after a power-on reset, before start-up has run, on a part never written
(notes/assumptions/5.md): POWER_ON_RESET runs start-up from here. -/
def State.reset : State := .cleared .neverWritten .off .power

end Sys2Proof.Machine
end

