-- ==== Sys2Proof/Machine/Operands.lean ====
section
/-! DEFINITION. Operand forms: the byte order of the link, the cyclic checks, the payload layouts of the requests,
and the parameters with their codings and ranges. -/

namespace Sys2Proof.Machine

/-! ### Bytes, most significant first (R183) -/

/-- The byte at an offset of a payload; 0 beyond its end (the length is judged first, R186). -/
def u8 (p : List Byte) (i : Nat) : Nat := (p.getD i 0).toNat

/-- Two bytes at an offset. -/
def u16 (p : List Byte) (i : Nat) : Nat := u8 p i * 256 + u8 p (i + 1)

/-- Three bytes at an offset. -/
def u24 (p : List Byte) (i : Nat) : Nat := u16 p i * 256 + u8 p (i + 2)

/-- Four bytes at an offset. -/
def u32 (p : List Byte) (i : Nat) : Nat := u24 p i * 256 + u8 p (i + 3)

/-- A number as one byte. -/
def b8 (n : Nat) : List Byte := [BitVec.ofNat 8 n]

/-- A number as two bytes. -/
def b16 (n : Nat) : List Byte := b8 (n / 256) ++ b8 n

/-- A number as three bytes. -/
def b24 (n : Nat) : List Byte := b8 (n / 65536) ++ b16 n

/-- A number as four bytes. -/
def b32 (n : Nat) : List Byte := b16 (n / 65536) ++ b16 n

/-- A signed number as three bytes in two's complement (R180). -/
def s24 (t : Int) : List Byte := b24 (t % 16777216).toNat

/-- A signed number as one byte in two's complement (R179). -/
def s8 (t : Int) : List Byte := b8 (t % 256).toNat

/-- A flag as one byte. -/
def flag8 (b : Bool) : List Byte := b8 b.toNat

/-! ### Cyclic checks (R37, R90, R183) -/

/-- One bit of a cyclic check of width `w` bits: shift left, and exclusive-or the generator when a 1 leaves. -/
def crcShift (w poly c : Nat) : Nat :=
  if 2 ^ w ≤ 2 * c then Nat.xor (2 * c - 2 ^ w) poly else 2 * c

/-- `n` bits of a cyclic check. -/
def crcShifts (w poly : Nat) : Nat → Nat → Nat
  | 0, c => c
  | n + 1, c => crcShifts w poly n (crcShift w poly c)

/-- One byte of a cyclic check, most significant bit first, no reflection. -/
def crcByte (w poly c b : Nat) : Nat := crcShifts w poly 8 (Nat.xor c (b * 2 ^ (w - 8)))

/-- The bytes of a cyclic check, from a running value. -/
def crcBytes (w poly : Nat) : Nat → List Nat → Nat
  | c, [] => c
  | c, b :: bs => crcBytes w poly (crcByte w poly c b) bs

/-- The CRC-16 of R37 and R183 carried on from a running value: generator 0x1021, no final inversion. -/
def crc16From (c : BitVec 16) (bytes : List Byte) : BitVec 16 :=
  BitVec.ofNat 16 (crcBytes 16 0x1021 c.toNat (bytes.map BitVec.toNat))

/-- The CRC-16 from its initial value 0xFFFF. -/
def crc16 (bytes : List Byte) : BitVec 16 := crc16From 0xFFFF bytes

/-- The `n` bytes of a number, most significant first. -/
def numBytes (v : Nat) : Nat → List Nat
  | 0 => []
  | n + 1 => v / 2 ^ (8 * n) % 256 :: numBytes v n

/-- The wanted signature of a tile: the CRC-32 of its 200 bytes, generator 0x04C11DB7, initial value
0xFFFFFFFF (R90). -/
def signature (px : TilePixels) : Signature :=
  BitVec.ofNat 32 (crcBytes 32 0x04C11DB7 0xFFFFFFFF (numBytes px.toNat 200))

/-! ### Trip records (R28, R35) -/

/-- The 8 bytes of a trip record (R35), over which the check of R37 is taken. -/
def Trip.bytes (t : Trip) : List Byte :=
  b16 t.route ++ b16 t.trip ++ b16 t.minute ++ b8 t.dest ++ b8 t.platform

/-- The trip record at an offset of a TRIP_BLOCK payload (R35). -/
def tripAt (p : List Byte) (o : Nat) : Trip :=
  ⟨u16 p o, u16 p (o + 2), u16 p (o + 4), u8 p (o + 6), u8 p (o + 7)⟩

/-- `n` trip records from an offset. -/
def tripsAt (p : List Byte) : Nat → Nat → List Trip
  | 0, _ => []
  | n + 1, o => tripAt p o :: tripsAt p n (o + 8)

/-- A trip's key. -/
def Trip.key (t : Trip) : Key := ⟨t.route, t.trip⟩

/-- The ranges of R28. -/
def Trip.inRange (t : Trip) : Bool :=
  1 ≤ t.route && t.route ≤ 999 && 1 ≤ t.trip && t.trip ≤ 65535 && t.minute ≤ 1439 && t.dest ≤ 255 && t.platform ≤ 7

/-- The check of R37 carried on over trip records. -/
def tripCheck (c : BitVec 16) (ts : List Trip) : BitVec 16 := crc16From c (ts.flatMap Trip.bytes)

/-! ### Prediction records (R44) -/

/-- A prediction record as it stands in the payload (R44). -/
structure PredictRecord where
  kind : Nat
  destPresent : Nat
  stop : BitVec 16
  key : Key
  second : Nat
  dest : Nat
  deriving DecidableEq, Repr

/-- The record at an offset of a PREDICT payload. -/
def predictAt (p : List Byte) (o : Nat) : PredictRecord :=
  ⟨u8 p o, u8 p (o + 1), BitVec.ofNat 16 (u16 p (o + 2)), ⟨u16 p (o + 4), u16 p (o + 6)⟩, u24 p (o + 8), u8 p (o + 11)⟩

/-- `n` records from an offset. -/
def predictsAt (p : List Byte) : Nat → Nat → List PredictRecord
  | 0, _ => []
  | n + 1, o => predictAt p o :: predictsAt p n (o + 12)

/-- The range test of R47: `kind` 1 ESTIMATE, 2 CANCEL, 3 DEPARTED, 4 RESTORE. -/
def PredictRecord.inRange (r : PredictRecord) : Bool :=
  1 ≤ r.kind && r.kind ≤ 4 && 1 ≤ r.key.route && r.key.route ≤ 999 && 1 ≤ r.key.trip &&
    (r.kind != 1 || (r.second ≤ 100799 && r.destPresent ≤ 1))

/-- The destination a record carries: an ESTIMATE's, when present (R44, R53). -/
def PredictRecord.destination (r : PredictRecord) : Option Nat :=
  if r.kind = 1 ∧ r.destPresent = 1 then some r.dest else none

/-! ### Windows (R48, R55) -/

/-- A window hits a stop code that agrees with the base wherever the mask has a 1 (R48). -/
def Window.hits (w : Window) (stop : BitVec 16) : Bool := w.enabled && (stop &&& w.mask) == (w.base &&& w.mask)

/-- The 7-byte layout of a window's settings: KEEP is 255, and an exclusion window (6, 7), which has no assignment, always
reports 255 (R48, R55). -/
def Window.bytes (index : Nat) (w : Window) : List Byte :=
  b8 index ++ flag8 w.enabled ++ b16 w.base.toNat ++ b16 w.mask.toNat ++
    b8 (if index ≤ 5 then w.platform.getD 255 else 255)

/-- The settings a WINDOW_SET payload gives; an exclusion window (6, 7) has no assignment (R55). -/
def windowOf (p : List Byte) : Window :=
  ⟨u8 p 1 = 1, BitVec.ofNat 16 (u16 p 2), BitVec.ofNat 16 (u16 p 4),
    if u8 p 0 ≤ 5 ∧ u8 p 6 ≤ 7 then some (u8 p 6) else none⟩

/-- The RANGE test of a WINDOW_SET payload (R55). -/
def windowInRange (p : List Byte) : Bool :=
  u8 p 0 ≤ 7 && u8 p 1 ≤ 1 && (5 < u8 p 0 || u8 p 6 ≤ 7 || u8 p 6 == 255)

/-! ### Glyphs and texts (R97, R98) -/

/-- Keep the leftmost `w` of 40 pixels (R98). -/
def leftPixels (w v : Nat) : BitVec 40 := BitVec.ofNat 40 (v / 2 ^ (40 - w) * 2 ^ (40 - w))

/-- A bitmap row of `b` bytes at an offset, left-aligned in 40 bits. -/
def glyphRowValue (p : List Byte) (o : Nat) : Nat → Nat → Nat
  | 0, v => v
  | b + 1, v => glyphRowValue p (o + 1) b (v * 256 + u8 p o)

/-- `n` bitmap rows of `b` bytes from an offset, for a width (R98). -/
def glyphRowsAt (p : List Byte) (w b : Nat) : Nat → Nat → List (BitVec 40)
  | 0, _ => []
  | n + 1, o => leftPixels w (glyphRowValue p o b 0 * 2 ^ (40 - 8 * b)) :: glyphRowsAt p w b n (o + b)

/-- The row length in bytes that a GLYPH_PUT payload's length gives (R98). -/
def glyphRowBytes (p : List Byte) : Nat := (p.length - 3) / 28

/-- The glyph a GLYPH_PUT payload gives (R98). -/
def glyphOf (p : List Byte) : Glyph := ⟨u8 p 2, glyphRowsAt p (u8 p 2) (glyphRowBytes p) 28 3⟩

/-- The RANGE tests of a GLYPH_PUT payload (R98). -/
def glyphInRange (p : List Byte) : Bool :=
  u16 p 0 ≤ 511 && 1 ≤ u8 p 2 && u8 p 2 ≤ 40 && (u8 p 2 + 7) / 8 == glyphRowBytes p

/-- `n` glyph codes of a TEXT_PUT payload from an offset (R97). -/
def codesAt (p : List Byte) : Nat → Nat → List Nat
  | 0, _ => []
  | n + 1, o => u16 p o :: codesAt p n (o + 2)

/-- The codes of a TEXT_PUT payload (R97). -/
def textOf (p : List Byte) : List Nat := codesAt p ((p.length - 1) / 2) 1

/-- A text's contents in range: at most 32 codes, none over 511 (R95, R100). -/
def textInRange (codes : List Nat) : Bool := codes.length ≤ 32 && codes.all (· ≤ 511)

/-- A glyph's contents in range: width 1 to 40 (R94, R100). -/
def Glyph.inRange (g : Glyph) : Bool := 1 ≤ g.width && g.width ≤ 40

/-! ### Payload lengths (R186) -/

/-- The lengths a kind allows. -/
def lengthAllowed (kind n : Nat) : Bool :=
  match kind with
  | 0x01 => n == 0
  | 0x02 => n == 5
  | 0x03 => n == 5
  | 0x04 => n == 1
  | 0x05 => n == 7
  | 0x06 => n == 2
  | 0x07 => n % 8 == 1 && 9 ≤ n && n ≤ 129
  | 0x08 => n == 4
  | 0x09 => n == 0
  | 0x0A => n % 12 == 0 && 12 ≤ n && n ≤ 144
  | 0x0B => n == 7
  | 0x0C => n == 1
  | 0x0D => n % 2 == 1 && n ≤ 65
  | 0x0E => n == 31 || n == 59 || n == 87 || n == 115 || n == 143
  | 0x0F => n == 2
  | 0x10 => n == 0
  | 0x11 => n == 0
  | 0x12 => n == 0
  | 0x13 => n == 0
  | _ => false

/-- A kind that is one of the 19 (R186). -/
def kindKnown (kind : Nat) : Bool := 1 ≤ kind && kind ≤ 0x13

/-! ### Parameters (R188) -/

/-- The range of a plain parameter, by identifier. -/
def plainRange (id : Nat) : Nat × Nat :=
  match id with
  | 1 => (6, 20)
  | 2 => (3, 12)
  | 3 => (0, 255)
  | 4 => (0, 255)
  | 5 => (0, 359)
  | 6 => (15, 240)
  | 7 => (0, 120)
  | 8 => (120, 1800)
  | 9 => (10, 90)
  | 10 => (0, 1)
  | 11 => (0, 255)
  | 12 => (0, 255)
  | 13 => (0, 255)
  | 14 => (0, 255)
  | 15 => (0, 255)
  | 16 => (1, 30)
  | 17 => (1, 63)
  | 18 => (0, 1439)
  | 19 => (1, 1000)
  | 20 => (1800, 4000)
  | 21 => (0, 7)
  | 22 => (2, 60)
  | 23 => (10, 5000)
  | 24 => (0, 2000)
  | 25 => (5, 500)
  | 26 => (0, 3)
  | 27 => (1, 60)
  | 28 => (0, 1000000)
  | 29 => (0, 1000000)
  | 30 => (0, 1000000)
  | 40 => (0, 1439)
  | 41 => (0, 1439)
  | 42 => (0, 255)
  | 43 => (0, 255)
  | _ => (1, 0)

/-- The partial count of a waveform pair: the third byte of the value (R188). -/
def pairPartial (v : Nat) : Nat := v / 256 % 256

/-- The full count of a waveform pair: the fourth byte of the value (R188). -/
def pairFull (v : Nat) : Nat := v % 256

/-- A value of a parameter in its range and coding (R188): P31 to P38 are pairs, P39 a set of classes without
STORE (R173), P04 a set of platforms. -/
def paramInRange (id v : Nat) : Bool :=
  if 31 ≤ id ∧ id ≤ 38 then
    v < 65536 && 1 ≤ pairPartial v && pairPartial v ≤ 60 && 1 ≤ pairFull v && pairFull v ≤ 120
  else if id = 39 then v < 512 && v % 2 == 0
  else (plainRange id).1 ≤ v && v ≤ (plainRange id).2

/-- A known parameter identifier (R189). -/
def paramKnown (id : Nat) : Bool := 1 ≤ id && id ≤ 43

/-- The parameter of an identifier, P01 is identifier 1. -/
def ConfigRecord.param (c : ConfigRecord) (id : Nat) : Nat := (c.params.getD (id - 1) 0).toNat

/-- The record with one parameter replaced. -/
def ConfigRecord.setParam (c : ConfigRecord) (id : Nat) (v : BitVec 32) : ConfigRecord :=
  { c with params := c.params.setIfInBounds (id - 1) v }

/-- The window of a number 0 to 7. -/
def ConfigRecord.window (c : ConfigRecord) (i : Nat) : Window := c.windows.getD i Config.defaultWindow

/-- The record with one window replaced. -/
def ConfigRecord.setWindow (c : ConfigRecord) (i : Nat) (w : Window) : ConfigRecord :=
  { c with windows := c.windows.setIfInBounds i w }

/-- Every parameter of a record in range, from an identifier on. -/
def paramsInRange : Nat → List (BitVec 32) → Bool
  | _, [] => true
  | id, v :: vs => paramInRange id v.toNat && paramsInRange (id + 1) vs

/-- A window's field in range: a platform 0 to 7 or none (R48). -/
def Window.inRange (w : Window) : Bool :=
  match w.platform with
  | none => true
  | some p => p ≤ 7

/-- Every field of a configuration record in range (R194 step 1). -/
def ConfigRecord.inRange (c : ConfigRecord) : Bool :=
  paramsInRange 1 c.params.toList && c.windows.toList.all Window.inRange

/-- P04, the shown-platform set: bit k stands for platform k (R188). -/
def ConfigRecord.shows (c : ConfigRecord) (platform : Nat) : Bool := (c.param 4).testBit platform

/-- P07, the grace in seconds. -/
def ConfigRecord.grace (c : ConfigRecord) : Int := c.param 7

/-- P06 × 60, the horizon in seconds. -/
def ConfigRecord.horizon (c : ConfigRecord) : Int := c.param 6 * 60

/-- P08, the stale limit in seconds. -/
def ConfigRecord.stale (c : ConfigRecord) : Int := c.param 8

/-- The value of P31 to P38 for a band. -/
def ConfigRecord.wave (c : ConfigRecord) (band : Nat) : Nat := c.param (31 + band)

end Sys2Proof.Machine
end

