-- ==== Sys2Proof/Machine/Flags.lean ====
section
/-! DEFINITION. The flags of the part: fault classes and dispositions, the news set and ATTN, and the Boolean states the
other blocks read. -/

namespace Sys2Proof.Machine

/-! ### Fault classes (R172, R179) -/

/-- The bit of a class in the layout of R179. -/
def FaultClass.index : FaultClass → Nat
  | .store => 0
  | .panel => 1
  | .booster => 2
  | .drive => 3
  | .temp => 4
  | .content => 5
  | .timetable => 6
  | .clock => 7
  | .supply => 8

/-- The set that holds one class. -/
def FaultClass.bit (c : FaultClass) : BitVec 16 := BitVec.ofNat 16 (2 ^ c.index)

/-- The two-digit class code (00 Conventions, R176). -/
def FaultClass.code : FaultClass → Nat
  | .store => 10
  | .panel => 20
  | .booster => 30
  | .drive => 31
  | .temp => 40
  | .content => 50
  | .timetable => 60
  | .clock => 70
  | .supply => 80

/-- The class of a fault (R172). -/
def FaultCode.cls : FaultCode → FaultClass
  | .store101 => .store
  | .store102 => .store
  | .store103 => .store
  | .store104 => .store
  | .store105 => .store
  | .store106 => .store
  | .panel201 => .panel
  | .panel202 => .panel
  | .booster301 => .booster
  | .drive311 => .drive
  | .drive312 => .drive
  | .temp401 => .temp
  | .temp402 => .temp
  | .content501 => .content
  | .content502 => .content
  | .content503 => .content
  | .timetable601 => .timetable
  | .timetable602 => .timetable
  | .clock701 => .clock
  | .clock702 => .clock
  | .supply801 => .supply

/-- The detail code of a fault (R172). -/
def FaultCode.detail : FaultCode → Nat
  | .store101 => 101
  | .store102 => 102
  | .store103 => 103
  | .store104 => 104
  | .store105 => 105
  | .store106 => 106
  | .panel201 => 201
  | .panel202 => 202
  | .booster301 => 301
  | .drive311 => 311
  | .drive312 => 312
  | .temp401 => 401
  | .temp402 => 402
  | .content501 => 501
  | .content502 => 502
  | .content503 => 503
  | .timetable601 => 601
  | .timetable602 => 602
  | .clock701 => 701
  | .clock702 => 702
  | .supply801 => 801

/-- A class is in the latched classes. -/
def FaultUnit.isLatched (f : FaultUnit) (c : FaultClass) : Bool := f.latched &&& c.bit != 0

/-- The classes at HOLD under P39, in the layout of R179; STORE is always CONTINUE (R173). -/
def holdSet (c : ConfigRecord) : BitVec 16 := BitVec.ofNat 16 (c.param 39) &&& 0x01FE

/-- Some latched class has the disposition HOLD (R150, R173). -/
def State.holdLatched (s : State) : Bool := s.faults.latched &&& holdSet s.cfg != 0

/-- A class is at HOLD (R171, R173). -/
def State.classHolds (s : State) (c : FaultClass) : Bool := holdSet s.cfg &&& c.bit != 0

/-! ### News (R177, R178, R179) -/

/-- The items of the news set that are not class items (R177). -/
inductive NewsItem where
  | conserveEntered
  | conserveLeft
  | rolloverDone
  | uploadTimedOut
  | startUpComplete
  deriving DecidableEq, Repr

/-- The bit of an item in the layout of R179. -/
def NewsItem.bit : NewsItem → BitVec 16
  | .conserveEntered => 0x0200
  | .conserveLeft => 0x0400
  | .rolloverDone => 0x0800
  | .uploadTimedOut => 0x1000
  | .startUpComplete => 0x2000

/-- The news flag: whether the news set holds any item (R178, R187). -/
def FaultUnit.newsFlag (f : FaultUnit) : Bool := f.news != 0

/-- The ATTN line: high while the news set holds any item (R178); low without power and in reset (R193),
where the news set is empty. -/
def State.attn (s : State) : Bool := s.faults.newsFlag

/-! ### Conditions the blocks read -/

/-- The clock is RUNNING (R59). -/
def State.clockRunning (s : State) : Bool := s.clock.time.isSome

/-- The part runs its blocks: in start-up or running (R193, R194). -/
def State.powered (s : State) : Bool := s.phase == .startUp || s.phase == .running

/-- A request can be taken: start-up has ended, no request is being worked on, no RESET waits for its
reply (R186, R192, R194). -/
def State.takesRequests (s : State) : Bool :=
  s.phase == .running && s.link.write.isNone && s.link.resetAfter.isNone

/-- The result codes (R187). -/
inductive Result where
  | ok
  | queueFull
  | badKind
  | badLength
  | range
  | clockUnset
  | noUpload
  | active
  | badDate
  | sequence
  | order
  | duplicate
  | mismatch
  | full
  | unknownId
  | storeFail
  deriving DecidableEq, Repr

/-- The code of a result (R187). -/
def Result.code : Result → Nat
  | .ok => 0
  | .queueFull => 1
  | .badKind => 2
  | .badLength => 3
  | .range => 4
  | .clockUnset => 5
  | .noUpload => 6
  | .active => 7
  | .badDate => 8
  | .sequence => 9
  | .order => 10
  | .duplicate => 11
  | .mismatch => 12
  | .full => 13
  | .unknownId => 14
  | .storeFail => 15

end Sys2Proof.Machine
end

