-- ==== Sys2Proof/Machine/Ops.lean ====
section
/-! DEFINITION. The named operations over the state that the families share: tables and stored banks, timers, the clock's
conversions, raising a fault, forming a reply, taking a request, and the model's own choices. -/

namespace Sys2Proof.Machine

/-! ### The tables of the Flash Store: lists of (place, item), places rising, no erased item listed -/

/-- An item that is erased. -/
def Item.isErased {α : Type} : Item α → Bool
  | .erased => true
  | _ => false

/-- The contents of an item whose check passes. -/
def Item.contents {α : Type} : Item α → Option α
  | .good a => some a
  | _ => none

/-- The item at a place; an unlisted place is erased. -/
def tableRead {α : Type} : List (Nat × Item α) → Nat → Item α
  | [], _ => .erased
  | (k, x) :: rest, n => if k = n then x else tableRead rest n

/-- Put an item at a place of a rising list, unless it is erased. -/
def tableWrite {α : Type} : List (Nat × Item α) → Nat → Item α → List (Nat × Item α)
  | [], n, y => if y.isErased then [] else [(n, y)]
  | (k, x) :: rest, n, y =>
    if n < k then (if y.isErased then (k, x) :: rest else (n, y) :: (k, x) :: rest)
    else if n = k then (if y.isErased then rest else (n, y) :: rest)
    else (k, x) :: tableWrite rest n y

/-- Every place of a table lies above a bound and rises, and no listed item is erased. -/
def tableWfAbove {α : Type} : Option Nat → List (Nat × Item α) → Bool
  | _, [] => true
  | low, (k, x) :: rest =>
    (match low with | none => true | some b => b < k) && !x.isErased && tableWfAbove (some k) rest

/-- The canonical form of a table. -/
def tableWf {α : Type} (t : List (Nat × Item α)) : Bool := tableWfAbove none t

/-- Add a place to a presence map (a rising list). -/
def presentAdd : List Nat → Nat → List Nat
  | [], n => [n]
  | k :: rest, n => if n < k then n :: k :: rest else if n = k then k :: rest else k :: presentAdd rest n

/-- Take a place out of a presence map. -/
def presentDrop (l : List Nat) (n : Nat) : List Nat := l.filter (· != n)

/-! ### Banks -/

/-- A bank as stored in flash. -/
def Flash.bank (f : Flash) : BankId → StoredBank
  | .a => f.bankA
  | .b => f.bankB

/-- Flash with one stored bank replaced. -/
def Flash.setBank (f : Flash) (i : BankId) (x : StoredBank) : Flash :=
  match i with
  | .a => { f with bankA := x }
  | .b => { f with bankB := x }

/-- A bank's record in working memory. -/
def Store.bank (st : Store) : BankId → BankRecord
  | .a => st.bankA
  | .b => st.bankB

/-- The Timetable Store with one bank record replaced. -/
def Store.setBank (st : Store) (i : BankId) (x : BankRecord) : Store :=
  match i with
  | .a => { st with bankA := x }
  | .b => { st with bankB := x }

/-- The other bank. -/
def BankId.other : BankId → BankId
  | .a => .b
  | .b => .a

/-- The bank that holds a role. -/
def Store.holder (st : Store) (r : Role) : Option BankId :=
  if st.bankA.role = some r then some .a
  else if st.bankB.role = some r then some .b
  else none

/-- The banks that hold the two roles. -/
def Store.roles (st : Store) : Roles := ⟨st.holder .current, st.holder .next⟩

/-- The trips of a bank in bank order, or none of no bank. -/
def State.bankTrips (s : State) (i : Option BankId) : List Trip :=
  match i with
  | none => []
  | some i => (s.flash.bank i).trips

/-- The trips, in bank order, of the bank that holds a role (R28: no other bank is read). -/
def State.roleTrips (s : State) (r : Role) : List Trip := s.bankTrips (s.store.holder r)

/-! ### Timers (R67) -/

/-- Start or restart: the reload value is loaded and the timer runs. -/
def Timer.start (t : Timer) : Timer := { t with remaining := t.reload, running := true }

/-- Stop: the remaining count is discarded. -/
def Timer.stop (t : Timer) : Timer := { t with remaining := 0, running := false }

/-- Expiry: a PERIODIC timer reloads and runs on, a ONE_SHOT timer becomes STOPPED. -/
def Timer.expire (t : Timer) : Timer :=
  match t.mode with
  | .periodic => t.start
  | .oneShot => t.stop

/-- A running timer whose count has reached zero: its expiry is due (R67). -/
def Timer.due (t : Timer) : Bool := t.running && t.remaining == 0

/-- A second counted by a running timer; one that is due waits at zero for its expiry (notes/assumptions/3.md). -/
def Timer.count (t : Timer) : Timer := { t with remaining := if t.running then t.remaining - 1 else t.remaining }

/-- Take over a new reload value; the count that is running goes on (R69). -/
def Timer.setReload (t : Timer) (n : Nat) : Timer := { t with reload := n }

/-! ### Clock conversions (R61) -/

/-- The wall second of a service second. -/
def ClockTime.wallSecond (t : ClockTime) : Nat := (t.second + 60 * t.dayStart) % 86400

/-- The wall minute of the clock. -/
def ClockTime.wallMinute (t : ClockTime) : Nat := t.wallSecond / 60

/-- The service second of a wall second, for a day start. -/
def serviceSecond (wall dayStart : Nat) : Nat := ((wall : Int) - 60 * dayStart).emod 86400 |>.toNat

/-- The wall minute of a board time, the floor taken toward minus infinity. -/
def wallMinuteOf (t : Int) (dayStart : Nat) : Nat := ((t / 60 + dayStart) % 1440).toNat

/-- The present service second, as the scale of the board (01 opening text); 0 while UNSET, where no board time exists. -/
def State.now (s : State) : Int := ((s.clock.time.map (·.second)).getD 0 : Nat)

/-! ### The model's own choices -/

/-- The next free value's number. -/
def State.fresh (s : State) : Nat × State := (s.freeCount, { s with freeCount := s.freeCount + 1 })

/-- Which of two blocks moves next: the head of the schedule, or false when it is used up. -/
def State.choose (s : State) : Bool × State :=
  match s.schedule with
  | [] => (false, s)
  | b :: rest => (b, { s with schedule := rest })

/-! ### The Fault Unit -/

/-- The stamp a fault raised now carries (R174). -/
def Clock.stamp (c : Clock) : Option Stamp := c.time.map fun t => ⟨t.date, t.wallSecond⟩

/-- A raise at the Fault Unit, in the four steps of R174. -/
def FaultUnit.raise (f : FaultUnit) (code : FaultCode) (stamp : Option Stamp) : FaultUnit :=
  { f with
    latched := f.latched ||| code.cls.bit
    news := if f.isLatched code.cls then f.news else f.news ||| code.cls.bit
    last := some ⟨code, stamp⟩
    first := f.first.or (some ⟨code, stamp⟩)
    count := min (f.count + 1) 65535 }

/-- Raise a fault (R174). -/
def State.raise (s : State) (code : FaultCode) : State :=
  { s with faults := s.faults.raise code s.clock.stamp }

/-- Raise faults in order. -/
def State.raiseAll (s : State) : List FaultCode → State
  | [] => s
  | c :: cs => (s.raise c).raiseAll cs

/-- Add an item to the news set (R177). -/
def State.addNews (s : State) (i : NewsItem) : State :=
  { s with faults := { s.faults with news := s.faults.news ||| i.bit } }

/-! ### Replies and requests -/

/-- A reply with its common header (R187). -/
def replyTo (kind tag : Byte) (result : Result) (slots : Nat) (news : Bool) (data : List Byte) : Reply :=
  ⟨kind + 128, tag, b8 result.code ++ b8 slots ++ flag8 news ++ data⟩

/-- Form the reply to the request at the head of the queue, which leaves the queue; any write of its is over
(R186, R187). -/
def State.reply (s : State) (result : Result) (data : List Byte) : State :=
  match s.link.requests with
  | [] => s
  | r :: rest =>
    { s with link := { s.link with
        requests := rest
        write := none
        replies := s.link.replies ++ [replyTo r.kind r.tag result (8 - rest.length) s.faults.newsFlag data] } }

/-- The QUEUE_FULL reply, formed at once for a frame that finds 8 requests (R185, R187). -/
def State.replyQueueFull (s : State) (r : Request) : State :=
  { s with link := { s.link with
      replies := s.link.replies ++ [replyTo r.kind r.tag .queueFull 0 s.faults.newsFlag []] } }

/-- Start a flash write for the request at the head (R186). -/
def State.startWrite (s : State) (w : FlashWrite) : State := { s with link := { s.link with write := some w } }

/-- The bytes of a reply's frame on TXD: marker, length, kind, tag, payload and check (R183, R187). -/
def Reply.frame (r : Reply) : List Byte :=
  let body := b8 r.payload.length ++ [r.kind, r.tag] ++ r.payload
  0xA5 :: body ++ b16 (crc16 body).toNat

/-- Take the request at the head when it is of a kind: refuse a length the kind does not allow, else hand its
payload to the owning block (R186). A request refused BAD_LENGTH does not reach its block, and so restarts no upload idle timer,
which is the model's choice (notes/assumptions/43.md). Where no such request can be taken now the command does not arise, and
the state stays (notes/assumptions/1.md). -/
def State.take (s : State) (kind : Nat) (work : List Byte → State → State) : State :=
  match s.link.requests with
  | [] => s
  | r :: _ =>
    if s.takesRequests && r.kind.toNat == kind then
      if lengthAllowed kind r.payload.length then work r.payload s else s.reply .badLength []
    else s

/-- Two pieces of work that the spec leaves in either order: `f` first, or `g` first where the schedule says so
(notes/assumptions/8.md). -/
def State.eitherOrder (s : State) (f g : State → State) : State :=
  if s.choose.1 then f (g s.choose.2) else g (f s.choose.2)

/-- A flash write failed: STORE_FAIL is answered and STORE/106 raised (R41, R56, R99, R189). -/
def State.storeFail (s : State) (data : List Byte) : State :=
  s.eitherOrder (fun t => t.reply .storeFail data) fun t => t.raise .store106

end Sys2Proof.Machine
end

