-- ==== Sys2Proof/Machine/Board.lean ====
section
/-! DEFINITION. The Departure Board's own work (01): order, insertion, refill, the sweep, the re-base at rollover, the
rebuild, and the four kinds of prediction record. The command SWEEP stands in Machine/Rounds.lean. -/

namespace Sys2Proof.Machine

/-! ### Entries and order -/

/-- The effective second of an entry (R3): the predicted second when LIVE or a CANCELLED EXTRA, else the
scheduled second. -/
def Entry.effective (e : Entry) : Int :=
  match e.state, e.origin with
  | .live, _ => (e.pred.map (·.second)).getD 0
  | .cancelled, .extra => (e.pred.map (·.second)).getD 0
  | _, _ => e.sched.getD 0

/-- The order of R4: effective second, then route, then trip. -/
def Entry.before (a b : Entry) : Bool :=
  decide (a.effective < b.effective) ||
    (a.effective == b.effective &&
      (decide (a.key.route < b.key.route) || (a.key.route == b.key.route && decide (a.key.trip < b.key.trip))))

/-- Put an entry at its place in the order (R4). -/
def placeEntry (e : Entry) : List Entry → List Entry
  | [] => [e]
  | x :: xs => if e.before x then e :: x :: xs else x :: placeEntry e xs

/-- Put every entry at its place (R4). -/
def sortEntries : List Entry → List Entry
  | [] => []
  | e :: es => placeEntry e (sortEntries es)

/-- The entry of a key (R2). -/
def Board.find (b : Board) (k : Key) : Option Entry := b.entries.find? (·.key == k)

/-- A key is on the gone list (R8). -/
def Board.isGone (b : Board) (k : Key) : Bool := b.gone.any (·.key == k)

/-- Take an entry off the board by key. -/
def Board.drop (b : Board) (k : Key) : Board := { b with entries := b.entries.filter (·.key != k) }

/-- Replace the entry of a key and re-place it (R4). -/
def Board.change (b : Board) (e : Entry) : Board :=
  { b with entries := placeEntry e (b.entries.filter (·.key != e.key)) }

/-! ### The gone list (R7) -/

/-- A record joins the gone list; at 32 the oldest leaves first (R7). -/
def joinGone (gone : List Gone) (k : Key) (expiry : Int) : List Gone :=
  gone.drop (gone.length - 31) ++ [⟨k, expiry⟩]

/-- The gone-list test of R7 for an entry that leaves as a departure. -/
def departGone (now grace : Int) (gone : List Gone) (e : Entry) : List Gone :=
  match e.origin, e.sched with
  | .extra, _ => gone
  | _, none => gone
  | _, some t => if now - grace ≤ t then joinGone gone e.key (t + grace) else gone

/-- An entry leaves the board as a departure (R7). -/
def Board.depart (b : Board) (now grace : Int) (e : Entry) : Board :=
  { b.drop e.key with gone := departGone now grace b.gone e }

/-! ### The state's board -/

/-- The state with its board replaced. -/
def State.setBoard (s : State) (b : Board) : State := { s with board := b }

/-- Insertion at capacity (R9). The Boolean says whether the new entry is on the board. -/
def State.insertEntry (s : State) (e : Entry) : State × Bool :=
  if s.board.entries.length < 32 then
    (s.setBoard { s.board with entries := placeEntry e s.board.entries }, true)
  else
    match s.board.entries.getLast? with
    | none => (s.raise .content503, false)
    | some l =>
      if e.before l then
        ((s.raise .content503).setBoard { s.board with entries := placeEntry e s.board.entries.dropLast }, true)
      else (s.raise .content503, false)

/-! ### Refill (R10) -/

/-- The refill window [now − grace, now + horizon] (R10). -/
def State.inWindow (s : State) (t : Int) : Bool :=
  decide (s.now - s.cfg.grace ≤ t) && decide (t ≤ s.now + s.cfg.horizon)

/-- The scheduled second a trip has through its bank's role (R28). -/
def Trip.sched (t : Trip) (r : Role) : Int :=
  match r with
  | .current => t.minute * 60
  | .next => t.minute * 60 + 86400

/-- The origin of an entry from the bank of a role (R10). -/
def Role.origin : Role → Origin
  | .current => .current
  | .next => .next

/-- Offer one trip of a role's bank to the board (R10). -/
def State.offerTrip (r : Role) (acc : State × Bool) (t : Trip) : State × Bool :=
  let s := acc.1
  if s.inWindow (t.sched r) && s.cfg.shows t.platform && (s.board.find t.key).isNone && !s.board.isGone t.key then
    let e : Entry := ⟨t.key, r.origin, t.dest, t.platform, some (t.sched r), none, .planned⟩
    ((s.insertEntry e).1, acc.2 || (s.insertEntry e).2)
  else acc

/-- Refill from the banks of two roles (R10): the CURRENT bank's trips, then the NEXT bank's. The Boolean says whether it inserted
anything. With the clock UNSET no bank is read. -/
def State.refillFrom (s : State) (r : Roles) : State × Bool :=
  if s.clockRunning then
    (s.bankTrips r.next).foldl (State.offerTrip .next)
      ((s.bankTrips r.current).foldl (State.offerTrip .current) (s, false))
  else (s, false)

/-- Refill from the banks that hold the roles now (R10). -/
def State.refill (s : State) : State × Bool := s.refillFrom s.store.roles

/-- A rebuild from the banks of two roles: empty the board and the gone list, then refill (R22). The hand-over is the caller's. -/
def State.rebuildFrom (s : State) (r : Roles) : State := ((s.setBoard ⟨[], []⟩).refillFrom r).1

/-- A rebuild from the banks that hold the roles now (R22). -/
def State.rebuild (s : State) : State := s.rebuildFrom s.store.roles

/-! ### The sweep (R12 to R14) -/

/-- The first stage for one entry: a stale prediction is dropped; a stale EXTRA entry leaves (R12). -/
def lapseEntry (now stale : Int) (e : Entry) : Option Entry :=
  match e.state, e.pred with
  | .live, some p =>
    if stale < now - p.stamp then
      (if e.origin = .extra then none else some { e with pred := none, state := .lapsed })
    else some e
  | _, _ => some e

/-- The first stage of the sweep (R12). -/
def Board.sweepStale (b : Board) (now stale : Int) : Board :=
  { b with entries := sortEntries (b.entries.filterMap (lapseEntry now stale)) }

/-- An entry's effective second is below now − grace (R13). -/
def Entry.passed (now grace : Int) (e : Entry) : Bool := decide (e.effective < now - grace)

/-- The second stage of the sweep: departures that have passed leave (R13). They join the gone list by board position, the first
entry first, which is the model's choice of an order that R7 and R13 leave open (notes/assumptions/44.md). -/
def Board.sweepPassed (b : Board) (now grace : Int) : Board where
  entries := b.entries.filter fun e => !e.passed now grace
  gone := (b.entries.filter (Entry.passed now grace)).foldl (departGone now grace) b.gone

/-- The third stage of the sweep: expired gone-list records leave (R14). -/
def Board.sweepGone (b : Board) (now : Int) : Board :=
  { b with gone := b.gone.filter fun g => decide (now ≤ g.expiry) }

/-- The three stages of the sweep in order, against one now (R12). -/
def Board.sweep (b : Board) (now grace stale : Int) : Board :=
  ((b.sweepStale now stale).sweepPassed now grace).sweepGone now

/-! ### The rollover's re-base (R23) -/

/-- A time of the old day on the new day's scale, not below −120 (R23). -/
def rebaseTime (t : Int) : Int := max (t - 86400) (-120)

/-- An entry re-based (R23). The stamp is reduced and not clamped. -/
def rebaseEntry (e : Entry) : Entry :=
  { e with
    sched := e.sched.map rebaseTime
    pred := e.pred.map fun p => ⟨rebaseTime p.second, p.stamp - 86400⟩
    origin := if e.origin = .next then .current else e.origin }

/-- The gone list re-based: expiries reduced, records below 0 leave (R23). -/
def rebaseGone (gone : List Gone) : List Gone :=
  (gone.map fun g => { g with expiry := g.expiry - 86400 }).filter fun g => decide (0 ≤ g.expiry)

/-- The re-base of the board at the rollover: at the new scale now is 0, and entries below −grace leave as
departures after the gone list's own re-base (R23). -/
def Board.rebase (b : Board) (grace : Int) : Board :=
  (Board.mk (sortEntries (b.entries.map rebaseEntry)) (rebaseGone b.gone)).sweepPassed 0 grace

/-! ### Prediction records at the board (R15 to R21) -/

/-- What became of a record (R15, R46). -/
inductive RecordOutcome where
  | applied
  | ignored
  | notMatched
  | notShown
  | unknownTrip
  | outsideHorizon
  | range
  deriving DecidableEq, Repr

/-- A state, a record's outcome, and whether the board itself changed (R6). -/
structure Applied where
  state : State
  outcome : RecordOutcome
  changed : Bool
  deriving DecidableEq, Repr

/-- The first bank with a role that holds a key: CURRENT, then NEXT (R15). -/
def State.findTrip (s : State) (k : Key) : Option (Role × Trip) :=
  match (s.roleTrips .current).find? (·.key == k) with
  | some t => some (.current, t)
  | none =>
    match (s.roleTrips .next).find? (·.key == k) with
    | some t => some (.next, t)
    | none => none

/-- Insert an entry for a record: APPLIED, or IGNORED when it is dropped at capacity (R15, R17). -/
def State.insertFor (s : State) (e : Entry) : Applied :=
  ⟨(s.insertEntry e).1, if (s.insertEntry e).2 then .applied else .ignored, (s.insertEntry e).2⟩

/-- An ESTIMATE for an entry on the board (R16). -/
def State.estimateEntry (s : State) (e : Entry) (second : Int) (dest : Option Nat) : Applied :=
  if e.state = .cancelled then ⟨s, .ignored, false⟩
  else if second < s.now - s.cfg.grace then
    ⟨s.setBoard (s.board.depart s.now s.cfg.grace e), .applied, true⟩
  else
    ⟨s.setBoard (s.board.change { e with dest := dest.getD e.dest, pred := some ⟨second, s.now⟩, state := .live }),
      .applied, true⟩

/-- An ESTIMATE record (R16, R17, R18). -/
def State.applyEstimate (s : State) (k : Key) (platform : Nat) (second : Int) (dest : Option Nat) : Applied :=
  match s.board.find k with
  | some e => s.estimateEntry e second dest
  | none =>
    if s.board.isGone k then ⟨s, .ignored, false⟩
    else match s.findTrip k with
    | some (r, t) =>
      if s.inWindow second then
        s.insertFor ⟨k, r.origin, dest.getD t.dest, platform, some (t.sched r), some ⟨second, s.now⟩, .live⟩
      else ⟨s, .outsideHorizon, false⟩
    | none =>
      match dest with
      | none => ⟨s, .unknownTrip, false⟩
      | some d =>
        if s.inWindow second then s.insertFor ⟨k, .extra, d, platform, none, some ⟨second, s.now⟩, .live⟩
        else ⟨s, .outsideHorizon, false⟩

/-- A CANCEL for an entry on the board: a timetable entry loses its prediction and leaves at once when its
scheduled second is below now − grace; an EXTRA entry keeps its prediction (R5, R19). -/
def State.cancelEntry (s : State) (e : Entry) : Applied :=
  if e.state = .cancelled then ⟨s, .ignored, false⟩
  else if e.origin = .extra then ⟨s.setBoard (s.board.change { e with state := .cancelled }), .applied, true⟩
  else
    let e' : Entry := { e with pred := none, state := .cancelled }
    if e'.passed s.now s.cfg.grace then ⟨s.setBoard (s.board.depart s.now s.cfg.grace e'), .applied, true⟩
    else ⟨s.setBoard (s.board.change e'), .applied, true⟩

/-- A CANCEL record (R19). -/
def State.applyCancel (s : State) (k : Key) (platform : Nat) : Applied :=
  match s.board.find k with
  | some e => s.cancelEntry e
  | none =>
    if s.board.isGone k then ⟨s, .ignored, false⟩
    else match s.findTrip k with
    | some (r, t) =>
      if s.inWindow (t.sched r) then
        s.insertFor ⟨k, r.origin, t.dest, platform, some (t.sched r), none, .cancelled⟩
      else ⟨s, .outsideHorizon, false⟩
    | none => ⟨s, .unknownTrip, false⟩

/-- A RESTORE record (R20). -/
def State.applyRestore (s : State) (k : Key) : Applied :=
  match s.board.find k with
  | none => ⟨s, .ignored, false⟩
  | some e =>
    if e.state = .cancelled then
      if e.origin = .extra then ⟨s.setBoard (s.board.drop k), .applied, true⟩
      else ⟨s.setBoard (s.board.change { e with pred := none, state := .planned }), .applied, true⟩
    else ⟨s, .ignored, false⟩

/-- A DEPARTED record (R21). -/
def State.applyDeparted (s : State) (k : Key) : Applied :=
  match s.board.find k with
  | some e => ⟨s.setBoard (s.board.depart s.now s.cfg.grace e), .applied, true⟩
  | none =>
    if s.board.isGone k then ⟨s, .ignored, false⟩
    else match s.findTrip k with
    | some (r, t) =>
      if s.inWindow (t.sched r) then
        ⟨s.setBoard { s.board with gone := joinGone s.board.gone k (t.sched r + s.cfg.grace) }, .applied, false⟩
      else ⟨s, .ignored, false⟩
    | none => ⟨s, .ignored, false⟩

/-! ### The Prediction Intake (R46 to R53) -/

/-- Some enabled match window hits and no enabled exclusion window hits (R49). -/
def ConfigRecord.admits (c : ConfigRecord) (stop : BitVec 16) : Bool :=
  (List.range 6).any (fun i => (c.window i).hits stop) && !(c.window 6).hits stop && !(c.window 7).hits stop

/-- The lowest-numbered match window that hits (R50). -/
def ConfigRecord.firstHit (c : ConfigRecord) (stop : BitVec 16) : Option Window :=
  ((List.range 6).map c.window).find? (·.hits stop)

/-- The platform the part knows for a key: on the board, else CURRENT, else NEXT, else 0 (R50). -/
def State.knownPlatform (s : State) (k : Key) : Nat :=
  match s.board.find k with
  | some e => e.platform
  | none =>
    match s.findTrip k with
    | some (_, t) => t.platform
    | none => 0

/-- The platform an admitted record receives (R50). -/
def State.assignPlatform (s : State) (r : PredictRecord) : Nat :=
  match (s.cfg.firstHit r.stop).bind (·.platform) with
  | some p => p
  | none => s.knownPlatform r.key

/-- Hand a record to the board by its kind (R53). -/
def State.boardRecord (s : State) (r : PredictRecord) (platform : Nat) : Applied :=
  match r.kind with
  | 1 => s.applyEstimate r.key platform r.second r.destination
  | 2 => s.applyCancel r.key platform
  | 3 => s.applyDeparted r.key
  | _ => s.applyRestore r.key

/-- The path of one record through the five stages of R46. -/
def State.intake (s : State) (r : PredictRecord) : Applied :=
  if r.inRange then
    if s.cfg.admits r.stop then
      if s.cfg.shows (s.assignPlatform r) then s.boardRecord r (s.assignPlatform r)
      else ⟨s, .notShown, false⟩
    else ⟨s, .notMatched, false⟩
  else ⟨s, .range, false⟩

/-- The records of a request in turn (R45): the state, the outcomes in order, and whether any changed the
board. -/
def State.intakeAll (s : State) : List PredictRecord → State × List RecordOutcome × Bool
  | [] => (s, [], false)
  | r :: rest =>
    let a := s.intake r
    let b := a.state.intakeAll rest
    (b.1, a.outcome :: b.2.1, a.changed || b.2.2)

/-- How many outcomes are of a kind. -/
def countOutcome (o : RecordOutcome) (l : List RecordOutcome) : Nat := (l.filter (· == o)).length

/-- The seven counts of the PREDICT reply, in the order of R52. -/
def predictCounts (l : List RecordOutcome) : List Byte :=
  b8 (countOutcome .applied l) ++ b8 (countOutcome .ignored l) ++ b8 (countOutcome .notMatched l) ++
    b8 (countOutcome .notShown l) ++ b8 (countOutcome .unknownTrip l) ++ b8 (countOutcome .outsideHorizon l) ++
    b8 (countOutcome .range l)

end Sys2Proof.Machine
end

