-- ==== Sys2Proof/Machine/Render.lean ====
section
/-! DEFINITION. Rendering a text into a field (06 §6.4), and cutting a band image into tiles (05 R90). A line of pixels is
a number: its leftmost pixel is the most significant of the line's bits, and 1 is dark. -/

namespace Sys2Proof.Machine

/-! ### Reading the tables (R96) -/

/-- The codes of a present text (R95, R96). -/
def State.textCodes (s : State) (id : Nat) : Option (List Nat) :=
  if s.presence.texts.contains id then (tableRead s.flash.texts id).contents else none

/-- A present glyph (R94, R96). -/
def State.glyphEntry (s : State) (code : Nat) : Option Glyph :=
  if s.presence.glyphs.contains code then (tableRead s.flash.glyphs code).contents else none

/-! ### What a field is to show (06 §6.4) -/

/-- A field's content: blank, a text by id, a sequence of codes, or a sequence followed by a text (the
countdown's digits and the min-suffix). -/
inductive Content where
  | blank
  | text (id : Nat)
  | codes (l : List Nat)
  | codesThenText (l : List Nat) (id : Nat)
  deriving DecidableEq, Repr

/-- A field: its content, its width in tiles, and whether it is set against its right edge (R73). -/
structure Field where
  content : Content
  tiles : Nat
  right : Bool
  deriving DecidableEq, Repr

/-- The list of codes of a content, and whether a text it reads is absent (R101, R103). -/
def State.contentCodes (s : State) : Content → List Nat × Bool
  | .blank => ([], false)
  | .codes l => (l, false)
  | .text id =>
    match s.textCodes id with
    | some l => (l, false)
    | none => ([], true)
  | .codesThenText l id =>
    match s.textCodes id with
    | some m => (l ++ m, false)
    | none => (l, true)

/-! ### Resolution, truncation, placement (R102, R104, R105) -/

/-- The blank advance of 8 px (R102). -/
def blankAdvance : Glyph := ⟨8, []⟩

/-- The glyph that stands for a code (R102). -/
def State.resolve (s : State) (code : Nat) : Glyph :=
  match s.glyphEntry code with
  | some g => g
  | none => (s.glyphEntry 0).getD blankAdvance

/-- A code is absent from the glyph table (R102). -/
def State.glyphAbsent (s : State) (code : Nat) : Bool := (s.glyphEntry code).isNone

/-- The sum of the advances. -/
def totalWidth : List Glyph → Nat
  | [] => 0
  | g :: gs => g.width + totalWidth gs

/-- The longest leading run of glyphs within a width (R104). -/
def runWithin : Nat → List Glyph → List Glyph
  | _, [] => []
  | room, g :: gs => if g.width ≤ room then g :: runWithin (room - g.width) gs else []

/-- The glyphs drawn in an available width: the whole list, or the run that leaves room for the ellipsis,
glyph 1, and the ellipsis (R104). -/
def fitLine (available : Nat) (ellipsis : Glyph) (gs : List Glyph) : List Glyph :=
  if totalWidth gs ≤ available then gs else runWithin (available - ellipsis.width) gs ++ [ellipsis]

/-- A bitmap row of a glyph as a number of `width` bits. -/
def Glyph.rowBits (g : Glyph) (r : Nat) : Nat := (g.rows.getD r 0).toNat / 2 ^ (40 - g.width)

/-- Pixel row `r` of the glyphs set from column `x` in a field of `w` pixels (R105). -/
def drawRow (w r : Nat) : Nat → List Glyph → Nat
  | _, [] => 0
  | x, g :: gs => g.rowBits r * 2 ^ (w - x - g.width) + drawRow w r (x + g.width) gs

/-- The 40 pixel rows of a line: the glyphs occupy rows 6 to 33 (R105). -/
def drawLine (w : Nat) (right : Bool) (gs : List Glyph) : List Nat :=
  let x := if right then w - 4 - totalWidth gs else 4
  List.replicate 6 0 ++ (List.range 28).map (fun r => drawRow w r x gs) ++ List.replicate 6 0

/-- A field's pixel rows, and the faults its rendering raises in order: CONTENT/502 for an absent text, then
CONTENT/501 for absent glyphs, the ellipsis included (R101 to R105). A blank field has no step. -/
def State.renderField (s : State) (f : Field) : List Nat × List FaultCode :=
  let codes := (s.contentCodes f.content).1
  let gs := codes.map s.resolve
  let w := 40 * f.tiles
  let cut := w - 4 < totalWidth gs
  let missing := codes.any s.glyphAbsent || (decide cut && s.glyphAbsent 1)
  (drawLine w f.right (fitLine (w - 4) (s.resolve 1) gs),
    (if (s.contentCodes f.content).2 then [.content502] else []) ++ (if missing then [.content501] else []))

/-! ### Bands and tiles (R90) -/

/-- Fields side by side, pixel row by pixel row; `w` is the width of the right part. -/
def besides (w : Nat) (left right : List Nat) : List Nat := List.zipWith (fun a b => a * 2 ^ w + b) left right

/-- The pixels of fields side by side, their width in tiles, and their faults in order (R90, R103). -/
def State.renderFields (s : State) : List Field → List Nat × Nat × List FaultCode
  | [] => (List.replicate 40 0, 0, [])
  | f :: fs =>
    let a := s.renderField f
    let b := s.renderFields fs
    (besides (40 * b.2.1) a.1 b.1, f.tiles + b.2.1, a.2 ++ b.2.2)

/-- The 1,600 pixels of the tile at a column of an image `tiles` tiles wide, as a number (R90). -/
def tileNumber (tiles c : Nat) : Nat → List Nat → Nat
  | v, [] => v
  | v, r :: rs => tileNumber tiles c (v * 2 ^ 40 + r / 2 ^ (40 * (tiles - 1 - c)) % 2 ^ 40) rs

/-- The tile at a column of an image. -/
def tileAt (tiles : Nat) (rows : List Nat) (c : Nat) : TilePixels := BitVec.ofNat 1600 (tileNumber tiles c 0 rows)

/-- Decimal digits without leading zeros as glyph codes 48 to 57 (R82, R83); `fuel` bounds their number, which is at most that of the
number itself. -/
def digitCodes : Nat → Nat → List Nat
  | 0, _ => []
  | fuel + 1, n => if n < 10 then [48 + n] else digitCodes fuel (n / 10) ++ [48 + n % 10]

/-- A number's digits (R82). -/
def decimal (n : Nat) : List Nat := digitCodes (n + 1) n

/-- A wall minute as hh:mm, with the colon, code 58 (R83). -/
def clockCodes (minute : Nat) : List Nat :=
  [48 + minute / 60 / 10, 48 + minute / 60 % 10, 58, 48 + minute % 60 / 10, 48 + minute % 60 % 10]

end Sys2Proof.Machine
end

