-- ==== Sys2Proof/Machine/Tiles.lean ====
section
/-! DEFINITION. The Tile Map and Refresh Queue's own work (08): the tiles' needs, formation of a row's jobs, the full clean,
and what a grant, a start, a completion, an abort, a return and a request reset do to the records. Each function
that may bring a job into the queue also says whether it did (R149). -/

namespace Sys2Proof.Machine

/-! ### Tiles (R116, R117) -/

/-- A tile needs driving (R117). -/
def Tile.needsDriving (t : Tile) : Bool := t.shown.isNone || (t.wanted.isSome && t.wanted != t.shown)

/-- Apply a function to every tile with its place in the list. -/
def mapTiles (f : Nat → Tile → Tile) : Nat → List Tile → List Tile
  | _, [] => []
  | i, t :: ts => f i t :: mapTiles f (i + 1) ts

/-- The state with its Tile Map replaced. -/
def State.setTiles (s : State) (tm : TileMap) : State := { s with tiles := tm }

/-- The tiles of a tile row, by column. -/
def TileMap.rowTiles (tm : TileMap) (r : Nat) : List Tile := (tm.tiles.drop (r * tm.wt)).take tm.wt

/-- The UNKNOWN count: tiles whose shown signature is absent (R117). -/
def TileMap.unknownCount (tm : TileMap) : Nat := tm.tiles.countP (·.shown.isNone)

/-- The clear-due count (R117). -/
def TileMap.clearDueCount (tm : TileMap) : Nat := tm.tiles.countP (·.clearDue)

/-- The clear-due threshold: four times the count exceeds the number of tiles (R127). -/
def TileMap.overThreshold (tm : TileMap) : Bool := decide (tm.wt * tm.ht < 4 * tm.clearDueCount)

/-! ### Jobs (R118) -/

/-- A job is GRANTED or DRIVING. -/
def Job.inHand (j : Job) : Bool := j.state == .granted || j.state == .driving

/-- The GRANTED or DRIVING job. -/
def TileMap.handJob (tm : TileMap) : Option Job := tm.jobs.find? Job.inHand

/-- A full clean is in the queue, in any state (R127). -/
def TileMap.hasClean (tm : TileMap) : Bool := tm.jobs.any (·.cls == .clean)

/-- The full clean in state QUEUED. -/
def TileMap.queuedClean (tm : TileMap) : Option Job := tm.jobs.find? fun j => j.cls == .clean && j.state == .queued

/-- The lowest number, from `n` on, that no job of the queue holds (R118). -/
def lowestFree (jobs : List Job) : Nat → Nat → Nat
  | 0, n => n
  | fuel + 1, n => if jobs.any (·.num == n) then lowestFree jobs fuel (n + 1) else n

/-- The place `i` of a tile lies in a job's span; the full clean covers every row (R118). -/
def Job.covers (j : Job) (wt i : Nat) : Bool :=
  j.cls == .clean || (i / wt == j.row && decide (j.first ≤ i % wt) && decide (i % wt ≤ j.last))

/-- The span's tile count; for the full clean every tile of the applied geometry (R119). -/
def TileMap.tileCount (tm : TileMap) (j : Job) : Nat :=
  if j.cls = .clean then tm.wt * tm.ht else j.last - j.first + 1

/-- Some tile of the span has an absent shown signature (R119). -/
def TileMap.spanUnknown (tm : TileMap) (j : Job) : Bool :=
  if j.cls = .clean then tm.tiles.any (·.shown.isNone)
  else (((tm.rowTiles j.row).drop j.first).take (j.last - j.first + 1)).any (·.shown.isNone)

/-- Replace a job by number. -/
def TileMap.changeJob (tm : TileMap) (n : Nat) (f : Job → Job) : TileMap :=
  { tm with jobs := tm.jobs.map fun j => if j.num = n then f j else j }

/-- The job of a number. -/
def TileMap.job (tm : TileMap) (n : Nat) : Option Job := tm.jobs.find? (·.num == n)

/-- Remove jobs from the queue, and clear the references of their tiles. -/
def TileMap.removeJobs (tm : TileMap) (gone : Job → Bool) : TileMap :=
  { tm with
    jobs := tm.jobs.filter fun j => !gone j
    tiles := tm.tiles.map fun t =>
      match t.job with
      | none => t
      | some n => if tm.jobs.any (fun j => j.num == n && gone j) then { t with job := none } else t }

/-! ### Formation (R120 to R123) -/

/-- The columns of the candidates of a row, from column `c`: no reference, and in need of driving (R121). -/
def candidates : Nat → List Tile → List Nat
  | _, [] => []
  | c, t :: ts => if t.job.isNone && t.needsDriving then c :: candidates (c + 1) ts else candidates (c + 1) ts

/-- No tile between columns `l` and `c` has a job reference: after the row's queued jobs are taken apart, such a
tile would belong to the job in hand (R121). -/
def gapFree (row : List Tile) (l c : Nat) : Bool := ((row.drop (l + 1)).take (c - l - 1)).all (·.job.isNone)

/-- Group candidates into spans, the open span being `f` to `l` (R121). -/
def groupSpans (row : List Tile) (f l : Nat) : List Nat → List (Nat × Nat)
  | [] => [(f, l)]
  | c :: cs =>
    if c - l ≤ 4 ∧ gapFree row l c then groupSpans row f c cs else (f, l) :: groupSpans row c c cs

/-- The spans of a row's candidates (R121). -/
def spansOf (row : List Tile) : List Nat → List (Nat × Nat)
  | [] => []
  | c :: cs => groupSpans row c c cs

/-- The class of a span by its band; `band` is the Notice List's class (R114, R123). -/
def TileMap.spanClass (tm : TileMap) (band : JobClass) (r f : Nat) : JobClass :=
  if r = 0 then (if tm.wt ≤ f + 2 then .clock else .row)
  else if r + 1 = tm.ht then band
  else .row

/-- The mode of a span: FULL when a tile has an absent shown signature or is clear-due (R123). -/
def spanMode (row : List Tile) (f l : Nat) : DriveMode :=
  if ((row.drop f).take (l - f + 1)).any (fun t => t.shown.isNone || t.clearDue) then .fullMode else .partialMode

/-- The earliest enqueue time of the old jobs a span covers, or the present elapsed second (R122). -/
def spanEnqueue (old : List Job) (now f l : Nat) : Nat :=
  match old.filter (fun j => decide (j.first ≤ l) && decide (f ≤ j.last)) with
  | [] => now
  | j :: js => js.foldl (fun m k => min m k.enqueue) j.enqueue

/-- Queue one span of a row as a job (R122, R123). -/
def TileMap.queueSpan (tm : TileMap) (band : JobClass) (old : List Job) (r f l : Nat) : TileMap :=
  let n := lowestFree tm.jobs 16 0
  let j : Job := ⟨n, tm.spanClass band r f, spanMode (tm.rowTiles r) f l, r, f, l,
    spanEnqueue old tm.elapsed f l, .queued, []⟩
  { tm with
    jobs := tm.jobs ++ [j]
    tiles := mapTiles (fun i t => if j.covers tm.wt i then { t with job := some n } else t) 0 tm.tiles }

/-- Queue the spans from left to right while the queue holds fewer than 16 jobs (R122). -/
def TileMap.queueSpans (band : JobClass) (old : List Job) (r : Nat) : TileMap → List (Nat × Nat) → TileMap
  | tm, [] => tm
  | tm, (f, l) :: rest =>
    if tm.jobs.length < 16 then TileMap.queueSpans band old r (tm.queueSpan band old r f l) rest else tm

/-- A QUEUED job of a tile row. -/
def Job.waitsInRow (r : Nat) (j : Job) : Bool := j.state == .queued && j.row == r && j.cls != .clean

/-- Formation of a tile row (R120 to R123). While a full clean is QUEUED it does nothing. -/
def TileMap.formRow (tm : TileMap) (band : JobClass) (r : Nat) : TileMap × Bool :=
  if tm.queuedClean.isSome then (tm, false)
  else
    let old := tm.jobs.filter (Job.waitsInRow r)
    let tm' := tm.removeJobs (Job.waitsInRow r)
    let row := tm'.rowTiles r
    let spans := spansOf row (candidates 0 row)
    (TileMap.queueSpans band old r tm' spans, !spans.isEmpty && decide (tm'.jobs.length < 16))

/-- Formation of several rows in turn. -/
def TileMap.formRows (band : JobClass) : TileMap → List Nat → TileMap × Bool
  | tm, [] => (tm, false)
  | tm, r :: rs =>
    let a := tm.formRow band r
    let b := TileMap.formRows band a.1 rs
    (b.1, a.2 || b.2)

/-- Every tile row in ascending order. -/
def TileMap.allRows (tm : TileMap) : List Nat := List.range tm.ht

/-- The rows, other than one, that hold a tile left without a job that needs driving (R131 step 3). -/
def TileMap.leftRows (tm : TileMap) (except : Option Nat) : List Nat :=
  tm.allRows.filter fun r =>
    some r != except && (tm.rowTiles r).any fun t => t.job.isNone && t.needsDriving

/-! ### The full clean (R127, R128) -/

/-- Queue a full clean, absorbing the queue, unless one is in the queue (R127, R128). -/
def TileMap.queueClean (tm : TileMap) : TileMap × Bool :=
  if tm.hasClean then (tm, false)
  else
    let tm' := tm.removeJobs fun j => j.state == .queued
    let n := lowestFree tm'.jobs 16 0
    let hand := tm'.handJob.map (·.num)
    ({ tm' with
        jobs := tm'.jobs ++ [⟨n, .clean, .fullMode, 0, 0, tm'.wt - 1, tm'.elapsed, .queued, []⟩]
        tiles := tm'.tiles.map fun t => if t.job.isSome && t.job == hand then t else { t with job := some n } },
      true)

/-- Queue a full clean when the clear-due threshold is reached (R127). -/
def TileMap.testThreshold (tm : TileMap) : TileMap × Bool :=
  if tm.overThreshold then tm.queueClean else (tm, false)

/-! ### Start, completion, abort, return (R130 to R133) -/

/-- The wanted signatures of a span, tile by tile: the snapshot (R130). -/
def snapshotOf (j : Job) (wt : Nat) : Nat → List Tile → List (Option Signature)
  | _, [] => []
  | i, t :: ts => if j.covers wt i then t.wanted :: snapshotOf j wt (i + 1) ts else snapshotOf j wt (i + 1) ts

/-- The job starts driving and takes its snapshot (R130). -/
def TileMap.startJob (tm : TileMap) (n : Nat) : TileMap :=
  tm.changeJob n fun j => { j with state := .driving, snapshot := snapshotOf j tm.wt 0 tm.tiles }

/-- A tile's ghosting after a completion, for the ghost limit (R125). -/
def Tile.driven (t : Tile) (mode : DriveMode) (limit : Nat) : Tile :=
  match mode with
  | .fullMode => { t with ghost := 0, clearDue := false }
  | .partialMode =>
    { t with ghost := min (t.ghost + 1) 63, clearDue := t.clearDue || decide (limit ≤ min (t.ghost + 1) 63) }

/-- A completion on the tiles, the snapshot read tile by tile (R130). -/
def completeTiles (j : Job) (wt limit : Nat) (ref : Option Nat) :
    Nat → List (Option Signature) → List Tile → List Tile
  | _, _, [] => []
  | i, snap, t :: ts =>
    if j.covers wt i then
      { ({ t with shown := snap.headD none }.driven j.mode limit) with job := ref } ::
        completeTiles j wt limit ref (i + 1) snap.tail ts
    else t :: completeTiles j wt limit ref (i + 1) snap ts

/-- An abort on the tiles (R132). -/
def abortTiles (j : Job) (wt : Nat) (ref : Option Nat) (tiles : List Tile) : List Tile :=
  mapTiles (fun i t => if j.covers wt i then { t with shown := none, clearDue := true, job := ref } else t) 0 tiles

/-- The steps after a job has left the queue: the threshold and a stored change of size, its own row or every row,
then the rows left by an overflow (R131). `sizeDiffers` says that the configured size is not the applied one. -/
def TileMap.afterJob (tm : TileMap) (band : JobClass) (j : Job) (sizeDiffers : Bool) : TileMap × Bool :=
  let a := tm.testThreshold
  let b := if j.cls = .clean ∧ sizeDiffers then a.1.queueClean else (a.1, false)
  let c := TileMap.formRows band b.1 (if j.cls = .clean then b.1.allRows else [j.row])
  let d := TileMap.formRows band c.1 (c.1.leftRows (if j.cls = .clean then none else some j.row))
  (d.1, a.2 || b.2 || c.2 || d.2)

/-- Completion of a DRIVING job, with the steps of R131 (R125, R130). -/
def TileMap.completeJob (tm : TileMap) (band : JobClass) (n limit : Nat) (sizeDiffers : Bool) : TileMap :=
  match tm.job n with
  | none => tm
  | some j =>
    let ref := tm.queuedClean.map (·.num)
    let tm' : TileMap := { tm with
      jobs := tm.jobs.filter fun k => k.num != n
      tiles := completeTiles j tm.wt limit ref 0 j.snapshot tm.tiles }
    (tm'.afterJob band j sizeDiffers).1

/-- Abort of a DRIVING job, with the steps of R131 (R132). -/
def TileMap.abortJob (tm : TileMap) (band : JobClass) (n : Nat) (sizeDiffers : Bool) : TileMap :=
  match tm.job n with
  | none => tm
  | some j =>
    let ref := tm.queuedClean.map (·.num)
    let tm' : TileMap := { tm with
      jobs := tm.jobs.filter fun k => k.num != n
      tiles := abortTiles j tm.wt ref tm.tiles }
    (tm'.afterJob band j sizeDiffers).1

/-- Return of a GRANTED job: QUEUED again with its fields kept; absorbed by a clean that is queued, else its row is
formed again; a returned clean is not re-formed (R133). -/
def TileMap.returnJob (tm : TileMap) (band : JobClass) (n : Nat) : TileMap :=
  match tm.job n with
  | none => tm
  | some j =>
    match tm.queuedClean with
    | some k =>
      { tm with
        jobs := tm.jobs.filter fun i => i.num != n
        tiles := tm.tiles.map fun t => if t.job = some n then { t with job := some k.num } else t }
    | none => ((tm.changeJob n fun i => { i with state := .queued }).formRow band j.row).1

/-! ### The ghost limit (R126) -/

/-- Step 1 of a new limit: tiles at or above it that are not in the job in hand are marked (R126). -/
def TileMap.markGhosts (tm : TileMap) (limit : Nat) : TileMap :=
  let hand := tm.handJob.map (·.num)
  { tm with tiles := tm.tiles.map fun t =>
      if limit ≤ t.ghost ∧ ¬(t.job.isSome ∧ t.job = hand) then { t with clearDue := true } else t }

/-- The rows in which a tile that step 1 marks belongs to a QUEUED job (R126 step 3). A tile that is clear-due already does not
count as marked by step 1, which is the model's choice (notes/assumptions/55.md). -/
def TileMap.markedRows (before after : TileMap) : List Nat :=
  after.allRows.filter fun r =>
    (List.zip (before.rowTiles r) (after.rowTiles r)).any fun p =>
      p.2.clearDue && !p.1.clearDue &&
        (match p.2.job with
         | none => false
         | some n => before.jobs.any fun j => j.num == n && j.state == .queued)

/-- A verified P17 that is not above the old limit (R126). A raised limit marks nothing. -/
def TileMap.newLimit (tm : TileMap) (band : JobClass) (old new : Nat) : TileMap × Bool :=
  if old < new then (tm, false)
  else
    let a := tm.markGhosts new
    let b := a.testThreshold
    let c := TileMap.formRows band b.1 (tm.markedRows a)
    (c.1, b.2 || c.2)

/-! ### The geometry and the request reset (R129, R135) -/

/-- Steps 1 and 3 of R129: records rebuilt for a new size, all in the clean `n`, whose span becomes the new
panel. -/
def TileMap.rebuilt (tm : TileMap) (wt ht n : Nat) : TileMap :=
  { (tm.changeJob n fun j => { j with row := 0, first := 0, last := wt - 1 }) with
    wt := wt, ht := ht, tiles := List.replicate (wt * ht) (.unknown (some n)) }

/-- The Tile Map's steps at a request reset (R135). -/
def TileMap.requestReset (tm : TileMap) (band : JobClass) : TileMap × Bool :=
  let cut := tm.jobs.find? fun j => j.state == .driving
  let tiles := match cut with
    | none => tm.tiles
    | some j => abortTiles j tm.wt none tm.tiles
  let a : TileMap := { tm with jobs := [], tiles := tiles.map fun t => { t with job := none } }
  let b := if tm.hasClean then a.queueClean else (a, false)
  let c := b.1.testThreshold
  let d := TileMap.formRows band c.1 c.1.allRows
  (d.1, b.2 || c.2 || d.2)

end Sys2Proof.Machine
end

