-- ==== Sys2Proof/Machine/Compose.lean ====
section
/-! DEFINITION. The Composer's own work (05): the rows' contents, the countdown arithmetic, the fields of the bands, and
writing changed signatures into the tile records. The hand-overs and the grant attempts they cause stand in
Machine/Recompose.lean. -/

namespace Sys2Proof.Machine

/-! ### The countdown arithmetic (R76 to R81) -/

/-- A computed countdown value after the conserve rule (R79). -/
def conserveValue (conserve : Bool) (m : Nat) : Nat := if conserve && decide (10 ≤ m) then m / 5 * 5 else m

/-- The step of the hysteresis from a shown value (R80). -/
def countdownStep (conserve : Bool) (v : Nat) : Nat := if conserve && decide (10 ≤ v) then 5 else 1

/-- The countdown hysteresis: confirm, hold or follow where the record counts down for the same key (R80), else
the computed value (R81). -/
def settleCountdown (conserve : Bool) (old : RowRecord) (key : Key) (n : Nat) : RowRecord :=
  match old with
  | .countdown k v pending =>
    if k = key then
      if pending = some n then .countdown key n none
      else if n = v + countdownStep conserve v then .countdown key v (some n)
      else .countdown key n none
    else .countdown key n none
  | _ => .countdown key n none

/-- The minutes of a delta of at least 30 s: rounded to the nearest minute, half up (R78). -/
def countdownMinutes (delta : Int) : Nat := ((delta + 30) / 60).toNat

/-- The record of a row that shows an entry (R77, R78), from the service second, D, P09 and conserve. -/
def evaluateEntry (now : Int) (dayStart threshold : Nat) (conserve : Bool) (old : RowRecord) (e : Entry) : RowRecord :=
  match e.state with
  | .cancelled => .cancelled e.key
  | .planned => .clockTime e.key (wallMinuteOf e.effective dayStart)
  | .lapsed => .clockTime e.key (wallMinuteOf e.effective dayStart)
  | .live =>
    let delta := e.effective - now
    if delta < 30 then .due e.key
    else if threshold < countdownMinutes delta then .clockTime e.key (wallMinuteOf e.effective dayStart)
    else settleCountdown conserve old e.key (conserveValue conserve (countdownMinutes delta))

/-- The rows with the entries at their positions; rows beyond the board are EMPTY (R76). -/
def evaluateRows (now : Int) (dayStart threshold : Nat) (conserve : Bool) : List RowRecord → List Entry → List RowRecord
  | [], _ => []
  | _ :: rs, [] => .empty :: evaluateRows now dayStart threshold conserve rs []
  | r :: rs, e :: es =>
    evaluateEntry now dayStart threshold conserve r e :: evaluateRows now dayStart threshold conserve rs es

/-- Row 1 is a MESSAGE and every other row is EMPTY (R76). -/
def messageRows (text : MessageText) : List RowRecord → List RowRecord
  | [] => []
  | _ :: rs => .message text :: rs.map fun _ => .empty

/-- An evaluation of every departure row (R76, R87). -/
def State.evaluate (s : State) : List RowRecord :=
  match s.clock.time with
  | none => messageRows .timeUnknown s.composer.rows
  | some t =>
    if s.board.entries.isEmpty then messageRows .noDepartures s.composer.rows
    else evaluateRows t.second t.dayStart (s.cfg.param 9) s.energy.conserve s.composer.rows s.board.entries

/-! ### The fields of the bands (R73, R82 to R86) -/

/-- The text id of a MESSAGE row (R76). -/
def ConfigRecord.messageId (c : ConfigRecord) : MessageText → Nat
  | .noDepartures => c.param 14
  | .timeUnknown => c.param 15

/-- The countdown field's content by mode (R83). -/
def ConfigRecord.countdownContent (c : ConfigRecord) : RowRecord → Content
  | .countdown _ v _ => .codesThenText (decimal v) (c.param 13)
  | .clockTime _ m => .codes (clockCodes m)
  | .due _ => .text (c.param 11)
  | .cancelled _ => .text (c.param 12)
  | .empty => .blank
  | .message _ => .blank

/-- The fields of a departure row, from its record and the entry at its position (R73, R82, R83, R84). -/
def rowFields (c : ConfigRecord) (wt : Nat) (r : RowRecord) (e : Option Entry) : List Field :=
  match r with
  | .message m => [⟨.text (c.messageId m), wt, false⟩]
  | .empty => [⟨.blank, 2, false⟩, ⟨.blank, wt - 4, false⟩, ⟨.blank, 2, true⟩]
  | _ =>
    match e with
    | none => [⟨.blank, 2, false⟩, ⟨.blank, wt - 4, false⟩, ⟨.blank, 2, true⟩]
    | some e =>
      [⟨.codes (decimal e.key.route), 2, false⟩, ⟨.text e.dest, wt - 4, false⟩, ⟨c.countdownContent r, 2, true⟩]

/-- The clock field: blank when P10 is off, the clock UNSET, or in conserve (R85). -/
def State.clockContent (s : State) : Content :=
  match s.clock.time with
  | none => .blank
  | some t => if s.cfg.param 10 = 0 || s.energy.conserve then .blank else .codes (clockCodes t.wallMinute)

/-- The shown notice: the one the rotation position names (R111). -/
def Notices.shown (n : Notices) : Option Notice :=
  match n.position with
  | none => none
  | some i => n.list.find? (·.id == i)

/-- The notice field's content (R86). -/
def State.noticeContent (s : State) : Content :=
  match s.notices.shown with
  | none => .blank
  | some n => .text n.text

/-- The class of the notice band's jobs (R114). -/
def Notices.jobClass (n : Notices) : JobClass :=
  match n.shown with
  | none => .notice
  | some x => if x.priority = 1 then .noticeUrgent else .notice

/-! ### Which bands a recomposition covers (R87) -/

/-- The part of the header band that is rendered. -/
inductive HeaderPart where
  | none
  | clock
  | whole
  deriving DecidableEq, Repr

/-- The bands of a recomposition. -/
structure Bands where
  header : HeaderPart
  rows : Bool
  notice : Bool
  deriving DecidableEq, Repr

/-- All bands. -/
def allBands : Bands := ⟨.whole, true, true⟩
/-- The departure rows. -/
def rowBands : Bands := ⟨.none, true, false⟩
/-- The clock field and the departure rows, at a minute tick. -/
def tickBands : Bands := ⟨.clock, true, false⟩
/-- The header band. -/
def headerBand : Bands := ⟨.whole, false, false⟩
/-- The notice band. -/
def noticeBand : Bands := ⟨.none, false, true⟩

/-- A run of fields to render: its tile row, its first column, its fields. -/
structure BandPart where
  row : Nat
  col : Nat
  fields : List Field
  deriving DecidableEq, Repr

/-- The departure rows' parts, from tile row `k` on. -/
def departureParts (c : ConfigRecord) (wt : Nat) : Nat → List RowRecord → List Entry → List BandPart
  | _, [], _ => []
  | k, r :: rs, [] => ⟨k, 0, rowFields c wt r none⟩ :: departureParts c wt (k + 1) rs []
  | k, r :: rs, e :: es => ⟨k, 0, rowFields c wt r (some e)⟩ :: departureParts c wt (k + 1) rs es

/-- The parts to render, in ascending order of tile row (R73, R87). -/
def State.bandParts (s : State) (b : Bands) : List BandPart :=
  let wt := s.tiles.wt
  let clock : Field := ⟨s.clockContent, 2, true⟩
  (match b.header with
    | .none => []
    | .clock => [⟨0, wt - 2, [clock]⟩]
    | .whole => [⟨0, 0, [⟨.text (s.cfg.param 3), wt - 2, false⟩, clock]⟩]) ++
  (if b.rows then departureParts s.cfg wt 1 s.composer.rows s.board.entries else []) ++
  (if b.notice then [⟨s.tiles.ht - 1, 0, [⟨s.noticeContent, wt, false⟩]⟩] else [])

/-! ### Writing signatures (R91) -/

/-- What the Composer's writing works on: the tile records, the kept pixels, and whether a tile was written. -/
structure Written where
  tiles : List Tile
  pixels : List (Option TilePixels)
  any : Bool
  deriving DecidableEq, Repr

/-- Write one tile's signature where it differs from the wanted one held, and keep its pixels (R91). -/
def Written.write (w : Written) (i : Nat) (px : TilePixels) : Written :=
  match w.tiles[i]? with
  | none => w
  | some t =>
    if t.wanted = some (signature px) then w
    else ⟨w.tiles.set i { t with wanted := some (signature px) }, w.pixels.set i (some px), true⟩

/-- Write the tiles of an image, from a column on (R91). -/
def Written.writeTiles (w : Written) (i tiles : Nat) (image : List Nat) : Nat → Written
  | 0 => w
  | n + 1 => (w.writeTiles i tiles image n).write (i + n) (tileAt tiles image n)

/-- The rendering of the parts: faults in order, and the images with their places and widths. -/
def State.renderParts (s : State) : List BandPart → List FaultCode × List (BandPart × List Nat × Nat)
  | [] => ([], [])
  | p :: ps =>
    let a := s.renderFields p.fields
    let b := s.renderParts ps
    (a.2.2 ++ b.1, (p, a.1, a.2.1) :: b.2)

/-- Write every image; the tile rows in which a tile was written, in order (R91). -/
def writeImages (wt : Nat) (tiles : List Tile) (pixels : List (Option TilePixels)) :
    List (BandPart × List Nat × Nat) → List Tile × List (Option TilePixels) × List Nat
  | [] => (tiles, pixels, [])
  | (p, image, n) :: rest =>
    let w := (Written.mk tiles pixels false).writeTiles (p.row * wt + p.col) n image n
    let x := writeImages wt w.tiles w.pixels rest
    (x.1, x.2.1, if w.any then p.row :: x.2.2 else x.2.2)

/-- The row records evaluated afresh, when the departure rows are among the bands (R87). -/
def State.evaluated (s : State) (b : Bands) : State :=
  if b.rows then { s with composer := { s.composer with rows := s.evaluate } } else s

/-- The written signatures and the kept pixels in their places (R91). -/
def State.keepWritten (s : State) (tiles : List Tile) (pixels : List (Option TilePixels)) : State :=
  { s with
    composer := { s.composer with pixels := pixels }
    tiles := { s.tiles with tiles := tiles } }

/-- A recomposition up to its hand-overs (R87 to R91): evaluate the rows, render the bands with their faults, write the
changed signatures. The list names the tile rows to hand over, ascending. -/
def State.compose (s : State) (b : Bands) : State × List Nat :=
  let s1 := s.evaluated b
  let r := s1.renderParts (s1.bandParts b)
  let w := writeImages s1.tiles.wt s1.tiles.tiles s1.composer.pixels r.2
  ((s1.raiseAll r.1).keepWritten w.1 w.2.1, w.2.2)

/-- Hand-overs that run formation and make no grant attempt of their own: at start-up, where every attempt grants
nothing (R194), and at a geometry application, where formation forms nothing (R129). -/
def State.formAll (s : State) (rows : List Nat) : State :=
  s.setTiles (TileMap.formRows s.notices.jobClass s.tiles rows).1

end Sys2Proof.Machine
end

