-- ==== Sys2Proof/Machine/Arbiter.lean ====
section
/-! DEFINITION. The Energy Account's arithmetic (09 §9.2 to §9.4), the Refresh Arbiter's choice and grant (09 §9.8), and the
Panel Drive's start of a rise or a drive (10 R157, R164), which a grant reaches. -/

namespace Sys2Proof.Machine

/-! ### Energy (R138, R140, R141, R142) -/

/-- The usable energy of a storage voltage, in mJ, for C in decifarads and Vf in mV (R138). -/
def usableEnergy (c vf vs : Nat) : Nat := if vs ≤ vf then 0 else c * (vs * vs - vf * vf) / 20000

/-- The drivable band of a temperature (R140). -/
def bandOf (t : Int) : Option Nat :=
  if t < -10 then none
  else if t < 0 then some 0
  else if t < 5 then some 1
  else if t < 10 then some 2
  else if t < 15 then some 3
  else if t < 25 then some 4
  else if t < 35 then some 5
  else if t < 45 then some 6
  else if t ≤ 55 then some 7
  else none

/-- The drivable band of the last sample (R140). -/
def State.band (s : State) : Option Nat := s.energy.temp.bind bandOf

/-- The frame count of a mode in a band (R140, R163). -/
def ConfigRecord.frames (c : ConfigRecord) (mode : DriveMode) (band : Nat) : Nat :=
  match mode with
  | .partialMode => pairPartial (c.wave band)
  | .fullMode => pairFull (c.wave band)

/-- n × f × K / 1,000 rounded up (R141). -/
def frameCost (n f k : Nat) : Nat := (n * f * k + 999) / 1000

/-- A job's cost: its frame cost, and the rise cost when the booster is OFF (R141, R156). -/
def State.cost (s : State) (j : Job) (band : Nat) : Nat :=
  frameCost (s.tiles.tileCount j) (s.cfg.frames j.mode band) (s.cfg.param 23) +
    (if s.drive.booster = .off then s.cfg.param 24 else 0)

/-- The reserve of a job's class (R142). -/
def State.reserve (s : State) (j : Job) : Nat :=
  match j.cls with
  | .noticeUrgent => s.cfg.param 28
  | .clean => if s.tiles.spanUnknown j then s.cfg.param 29 else s.cfg.param 30
  | .row => s.cfg.param 29
  | .notice => s.cfg.param 29
  | .clock => s.cfg.param 29

/-! ### The arbiter's choice (R150, R151) -/

/-- The base priority of a class (R151). -/
def JobClass.base : JobClass → Int
  | .noticeUrgent => 1
  | .row => 4
  | .notice => 6
  | .clock => 8
  | .clean => 10

/-- The effective priority: one less for each whole 30 s waited, never below 0 (R151). -/
def Job.priority (j : Job) (elapsed : Nat) : Int := max 0 (j.cls.base - ((elapsed : Int) - j.enqueue) / 30)

/-- A job is eligible, for a drivable band, beyond the conditions that hold for every job alike (R150). -/
def State.eligible (s : State) (band : Nat) (j : Job) : Bool :=
  j.state == .queued &&
    !(j.cls == .clean && s.energy.conserve && !s.tiles.spanUnknown j) &&
    decide (s.cost j band + s.reserve j ≤ s.energy.estimate)

/-- One job goes before another: lower priority, then earlier enqueue time, then lower row, then lower column
(R151). -/
def Job.goesBefore (elapsed : Nat) (a b : Job) : Bool :=
  decide (a.priority elapsed < b.priority elapsed) ||
    (a.priority elapsed == b.priority elapsed &&
      (decide (a.enqueue < b.enqueue) ||
        (a.enqueue == b.enqueue && (decide (a.row < b.row) || (a.row == b.row && decide (a.first < b.first))))))

/-- The first of a list in the arbiter's order. -/
def pickJob (elapsed : Nat) : List Job → Option Job
  | [] => none
  | j :: js =>
    match pickJob elapsed js with
    | none => some j
    | some k => if k.goesBefore elapsed j then some k else some j

/-- The job the arbiter would grant now, with its band: none while the part is not running, while a job is in hand,
while a HOLD class is latched, or while the temperature is absent or out of range (R149, R150, R194). -/
def State.chooseJob (s : State) : Option (Job × Nat) :=
  if s.phase ≠ .running ∨ s.tiles.handJob.isSome ∨ s.holdLatched then none
  else match s.band with
  | none => none
  | some band => (pickJob s.tiles.elapsed (s.tiles.jobs.filter (s.eligible band))).map fun j => (j, band)

/-! ### The Panel Drive: rise and start (R157, R164) -/

/-- The state with its Panel Drive replaced. -/
def State.setDrive (s : State) (d : Drive) : State := { s with drive := d }

/-- BEN is raised, the state becomes RISING, and the rise timer is started (R157, R159). -/
def State.startRise (s : State) : State :=
  { s with
    drive := { s.drive with ben := true, booster := .rising }
    timers := { s.timers with rise := s.timers.rise.start } }

/-- The pixels the Composer holds for the tiles of a span, all light where it holds none (R164). -/
def imageOf (j : Job) (wt : Nat) : Nat → List (Option TilePixels) → List TilePixels
  | _, [] => []
  | i, p :: ps => if j.covers wt i then p.getD 0 :: imageOf j wt (i + 1) ps else imageOf j wt (i + 1) ps

/-- The drive of the granted job starts: DRIVING, the snapshot, the image sent (R164). -/
def State.startDrive (s : State) : State :=
  match s.drive.granted.bind s.tiles.job with
  | none => s
  | some j =>
    { s with
      drive := { s.drive with
        booster := .driving
        framesDriven := 0
        brownedOut := false
        sent := some ⟨j.mode, j.row, j.first, j.last, imageOf j s.tiles.wt 0 s.composer.pixels⟩ }
      tiles := s.tiles.startJob j.num }

/-- BEN low, state OFF. -/
def Drive.lowered (d : Drive) : Drive := { d with booster := .off, ben := false }

/-- A granted job meets the booster in OFF: a rise, or a wait for supply (R157). -/
def State.meetOff (s : State) : State := if s.drive.supplyAbove then s.startRise else s

/-- The linger timer expires and the booster is lowered (R160). -/
def State.lingerDown (s : State) : State :=
  { s with drive := s.drive.lowered, timers := { s.timers with linger := s.timers.linger.expire } }

/-- The linger timer is stopped by a grant while READY, and the drive starts (R157, R160). -/
def State.meetReady (s : State) : State :=
  State.startDrive { s with timers := { s.timers with linger := s.timers.linger.stop } }

/-- A granted job meets the booster (the table of R157): a rise, a wait for supply, a drive at once, or a wait
for the end of a cut frame. A linger expiry that is due reaches the Panel Drive together with the grant: either is taken first,
as the schedule says, and a rise after the expiry is not charged (R160, notes/assumptions/46.md). -/
def State.meetBooster (s : State) : State :=
  match s.drive.booster with
  | .off => s.meetOff
  | .ready =>
    if s.timers.linger.due then
      if s.choose.1 then s.choose.2.lingerDown.meetOff else s.choose.2.meetReady
    else s.meetReady
  | .rising => s
  | .driving => s

/-! ### The grant (R129, R152, R157, R171) -/

/-- A change of size is pending: the configured size is not the applied one (R129). -/
def State.sizeDiffers (s : State) : Bool := s.cfg.param 1 != s.tiles.wt || s.cfg.param 2 != s.tiles.ht

/-- The geometry application at a full clean's grant (R74, R129). -/
def State.applySize (s : State) (n : Nat) : State :=
  if s.sizeDiffers then
    let wt := s.cfg.param 1
    let ht := s.cfg.param 2
    let a : State := { s with
      tiles := s.tiles.rebuilt wt ht n
      composer := .afterReset wt ht }
    (a.compose allBands).1.formAll (a.compose allBands).2
  else s

/-- The grant of a job at a cost and a frame count: E is debited, the job is GRANTED, and the Panel Drive takes it; a
full clean first applies a pending size and makes its identity exchange (R152, R157, R171). A clean that is granted while a cut
frame finishes makes its exchange at the grant, and the frame end waits for it: the model's choice (notes/assumptions/47.md). -/
def State.grant (s : State) (j : Job) (band : Nat) : State :=
  let a : State := { s with
    energy := { s.energy with estimate := s.energy.estimate - s.cost j band }
    tiles := s.tiles.changeJob j.num fun k => { k with state := .granted }
    drive := { s.drive with
      granted := some j.num
      frameCount := s.cfg.frames j.mode band
      framesDriven := 0
      retriesUsed := 0 } }
  if j.cls = .clean then
    let b := a.applySize j.num
    b.setDrive { b.drive with exchange := some .clean }
  else a.meetBooster

/-- A grant attempt (R149): at most one job is granted. -/
def State.attempt (s : State) : State :=
  match s.chooseJob with
  | none => s
  | some (j, band) => s.grant j band

/-- A grant attempt event reaches the arbiter in the middle of a step: it is taken now or at the end of the step, as the
schedule says (R137, R149, notes/assumptions/7.md). -/
def State.noteAttempt (s : State) : State :=
  if s.choose.1 then s.choose.2.attempt else { s.choose.2 with attemptWaiting := true }

/-- The end of a step: an attempt that waits is taken. -/
def State.settle (s : State) : State :=
  if s.attemptWaiting then State.attempt { s with attemptWaiting := false } else s

end Sys2Proof.Machine
end

