-- ==== Sys2Proof/Machine/Banks.lean ====
section
/-! DEFINITION. The Timetable Store's own work (02): bank selection, the upload context, and what becomes of a flash write
that fails or is cut short. -/

namespace Sys2Proof.Machine

/-! ### Bank selection (R32) -/

/-- The state with its Timetable Store replaced. -/
def State.setStore (s : State) (st : Store) : State := { s with store := st }

/-- A bank is VALID and carries a date. -/
def BankRecord.carries (b : BankRecord) (date : Nat) : Bool := b.state == .valid && b.date == date

/-- A bank is VALID and dated before a date. -/
def BankRecord.olderThan (b : BankRecord) (date : Nat) : Bool := b.state == .valid && decide (b.date < date)

/-- Free a bank's record; its stored header is not touched (R30). -/
def BankRecord.release (b : BankRecord) : BankRecord := { b with state := .free, role := none }

/-- Bank A is the later-committed of two VALID banks: its number is one more than the other's, modulo 65,536
(R29). -/
def aLater (a b : Nat) : Bool :=
  if a % 65536 = (b + 1) % 65536 then true
  else if b % 65536 = (a + 1) % 65536 then false
  else Config.bankALater a b

/-- Step 1, supersession: of two VALID banks of one date the later-committed is kept (R32). -/
def Store.supersede (st : Store) : Store :=
  if st.bankA.state = .valid ∧ st.bankB.state = .valid ∧ st.bankA.date = st.bankB.date then
    if aLater st.bankA.commit st.bankB.commit then { st with bankB := st.bankB.release }
    else { st with bankA := st.bankA.release }
  else st

/-- Step 2: the bank of the date, else the VALID bank of the greatest older date (R32). -/
def Store.currentFor (st : Store) (n : Nat) : Option BankId :=
  if st.bankA.carries n then some .a
  else if st.bankB.carries n then some .b
  else if st.bankA.olderThan n then
    (if st.bankB.olderThan n && decide (st.bankA.date < st.bankB.date) then some .b else some .a)
  else if st.bankB.olderThan n then some .b
  else none

/-- Step 3: the VALID bank of the next date; at 65,535 there is none (R32). -/
def Store.nextFor (st : Store) (n : Nat) : Option BankId :=
  if n = 65535 then none
  else if st.bankA.carries (n + 1) then some .a
  else if st.bankB.carries (n + 1) then some .b
  else none

/-- Steps 4 and 5 for one bank: it takes the role it is given, and an older VALID bank that did not become
CURRENT is freed (R32). -/
def BankRecord.settleRole (b : BankRecord) (i : BankId) (n : Nat) (cur nxt : Option BankId) : BankRecord :=
  if cur = some i then { b with role := some .current }
  else if nxt = some i then { b with role := some .next }
  else if b.olderThan n then b.release
  else { b with role := none }

/-- Some VALID bank carries the date. -/
def Store.hasDate (st : Store) (n : Nat) : Bool := st.bankA.carries n || st.bankB.carries n

/-- Bank selection against a date, steps 1 to 5 (R32). -/
def Store.select (st : Store) (n : Nat) : Store :=
  let t := st.supersede
  let cur := t.currentFor n
  let nxt := t.nextFor n
  { t with
    bankA := t.bankA.settleRole .a n cur nxt
    bankB := t.bankB.settleRole .b n cur nxt
    reuse := cur.isSome && !t.hasDate n }

/-- Selection against the present service date, with TIMETABLE/601 when no VALID bank carries it; while UNSET it
does not run (R31, R32). -/
def State.selectBanks (s : State) : State :=
  match s.clock.time with
  | none => s
  | some t =>
    let s' := s.setStore (s.store.select t.date)
    if s.store.supersede.hasDate t.date then s' else s'.raise .timetable601

/-! ### The upload context (R34, R39, R40) -/

/-- The expected block number, 0 while CLOSED (R34). -/
def Store.expected (st : Store) : Nat := (st.upload.map (·.expected)).getD 0

/-- The trips so far, 0 while CLOSED (R34). -/
def Store.tripsSoFar (st : Store) : Nat := (st.upload.map (·.trips)).getD 0

/-- The running check, 0xFFFF while CLOSED (R34). -/
def Store.runningCheck (st : Store) : BitVec 16 := (st.upload.map (·.check)).getD 0xFFFF

/-- Close the upload and free its target: an abort, a failure, a timeout or a request reset (R39, R40, R41, R43). -/
def Store.abort (st : Store) : Store :=
  match st.upload with
  | none => st
  | some u => { st.setBank u.target (st.bank u.target).release with upload := none }

/-- The upload is aborted and its idle timer stops (R39). -/
def State.abortUpload (s : State) : State :=
  { s with store := s.store.abort, timers := { s.timers with upload := s.timers.upload.stop } }

/-- An upload request taken while the upload is open restarts the idle timer, whatever its result (R40). -/
def State.touchUpload (s : State) : State :=
  if s.store.upload.isSome then { s with timers := { s.timers with upload := s.timers.upload.start } } else s

/-- The target of an upload: the bank that does not hold CURRENT, or A (R34). -/
def Store.target (st : Store) : BankId :=
  if st.bankA.role = some .current then .b else .a

/-- The commit number of a commit to a bank: one more than the other stored header's when that records VALID,
else 1 (R29). -/
def commitNumber (f : Flash) (target : BankId) : Nat :=
  match (f.bank target.other).header with
  | .good (.valid _ _ _ n) => (n + 1) % 65536
  | _ => 1

/-- The place of a bank in replies: 0 for A, 1 for B (R34). -/
def BankId.number : BankId → Nat
  | .a => 0
  | .b => 1

/-! ### The five tests of a trip block (R35) -/

/-- Minutes do not fall, from a last minute on (R35 test 3). -/
def minutesRise : Option Nat → List Trip → Bool
  | _, [] => true
  | m, t :: ts => (match m with | none => true | some x => x ≤ t.minute) && minutesRise (some t.minute) ts

/-- No key stands twice, nor among other trips (R35 test 4). -/
def keysFresh (held : List Trip) : List Trip → Bool
  | [] => true
  | t :: ts => !held.any (·.key == t.key) && !ts.any (·.key == t.key) && keysFresh held ts

/-- The first failing test of a block against an open context and the target's trips, or none (R35). -/
def blockFault (u : Upload) (held : List Trip) (number : Nat) (ts : List Trip) : Option Result :=
  if number ≠ u.expected then some .sequence
  else if !ts.all Trip.inRange then some .range
  else if !minutesRise u.lastMinute ts then some .order
  else if !keysFresh held ts then some .duplicate
  else if 1200 < u.trips + ts.length then some .full
  else none

/-- The context after a block is written (R36). -/
def Upload.after (u : Upload) (ts : List Trip) : Upload :=
  { u with
    trips := u.trips + ts.length
    lastMinute := (ts.getLast?.map (·.minute)).or u.lastMinute
    check := tripCheck u.check ts
    expected := if u.expected = 74 then 0 else u.expected + 1 }

/-! ### A flash write cut short by a power loss or a line reset (R41, R56, R99, notes/assumptions/14.md) -/

/-- A table item whose write was cut: it fails its check or reads as erased (R99). -/
def cutItem {α : Type} (n : Nat) : Item α := if Config.cutItemErased n then .erased else .bad

/-- Flash after a write in progress stops at once. -/
def Flash.cut (f : Flash) (n : Nat) (target : Option BankId) : FlashWrite → Flash
  | .config _ _ => { f with config := .bad }
  | .window _ _ => { f with config := .bad }
  | .bankErase t _ => f.setBank t ⟨.bad, Config.tripsLeft n⟩
  | .fillingHeader t _ => f.setBank t { f.bank t with header := .bad }
  | .tripBlock _ =>
    match target with
    | none => f
    | some t => f.setBank t { f.bank t with trips := Config.tripsLeft n }
  | .commitHeader t _ _ _ _ => f.setBank t { f.bank t with header := .bad }
  | .text id _ => { f with texts := tableWrite f.texts id (cutItem n) }
  | .glyph code _ => { f with glyphs := tableWrite f.glyphs code (cutItem n) }

/-- The flash and the free-value counter after the part stops at once. -/
def State.cutWrite (s : State) : Flash × Nat :=
  match s.link.write with
  | none => (s.flash, s.freeCount)
  | some w => (s.flash.cut s.freeCount (s.store.upload.map (·.target)) w, s.freeCount + 1)

/-! ### The start-up check of a bank (R42) -/

/-- A bank's record after the start-up check, and whether the check failed (R42). The CRC is taken over every stored record, and
the header's count is not compared with their number, which is the model's choice (notes/assumptions/45.md). -/
def StoredBank.checked (b : StoredBank) : BankRecord × Bool :=
  match b.header with
  | .erased => (.freeRecord, false)
  | .bad => (.freeRecord, true)
  | .good (.filling _ _ _ _) => (.freeRecord, false)
  | .good (.valid date count check commit) =>
    if count ≤ 1200 ∧ tripCheck 0xFFFF b.trips = check then (⟨.valid, date, count, check, commit, none⟩, false)
    else (.freeRecord, true)

end Sys2Proof.Machine
end

