-- ==== Sys2Proof/Machine/Faults.lean ====
section
/-! DEFINITION. The Faults family (11): STATUS, BOARD_READ, FAULT_READ and FAULT_CLEAR. -/

namespace Sys2Proof.Machine

/-! ### STATUS (R178, R179) -/

/-- The reset cause's code (R179). -/
def ResetCause.number : ResetCause → Nat
  | .power => 1
  | .line => 2
  | .request => 3

/-- The clock state, wall time and service date, 0 while UNSET (R179). -/
def Clock.statusBytes (c : Clock) : List Byte :=
  match c.time with
  | none => flag8 false ++ b24 0 ++ b16 0
  | some t =>
    flag8 true ++ b8 (t.wallSecond / 3600) ++ b8 (t.wallSecond / 60 % 60) ++ b8 (t.wallSecond % 60) ++ b16 t.date

/-- The date of the bank that holds a role, 0 when none does (R179). -/
def Store.roleDate (st : Store) (r : Role) : Nat :=
  match st.holder r with
  | none => 0
  | some i => (st.bank i).date

/-- The class byte of the job in hand (R179). -/
def JobClass.number : JobClass → Nat
  | .noticeUrgent => 1
  | .row => 2
  | .notice => 3
  | .clock => 4
  | .clean => 5

/-- The booster byte (R179). -/
def Booster.number : Booster → Nat
  | .off => 0
  | .rising => 1
  | .ready => 2
  | .driving => 3

/-- The Timetable Store's part of the reply (R179, offsets 7 to 15). -/
def Store.statusBytes (st : Store) : List Byte :=
  b16 (st.roleDate .current) ++ b16 (st.roleDate .next) ++ flag8 (st.holder .current).isSome ++
    flag8 (st.holder .next).isSome ++ flag8 st.reuse ++ flag8 st.upload.isSome ++ b8 st.expected

/-- The Tile Map's and the Panel Drive's part of the reply (R179, offsets 19 to 23). -/
def State.panelStatusBytes (s : State) : List Byte :=
  b8 (s.tiles.jobs.countP (·.state == .queued)) ++
    b8 ((s.tiles.handJob.map fun j => j.cls.number).getD 0) ++ b8 s.drive.booster.number ++
    b8 s.tiles.unknownCount ++ b8 s.tiles.clearDueCount

/-- The Energy Account's part of the reply (R179, offsets 24 to 31). -/
def Energy.statusBytes (e : Energy) : List Byte :=
  b16 (e.vs.getD 0xFFFF) ++ b24 e.estimate ++ s8 (e.temp.getD (-128)) ++ flag8 e.conserve ++ flag8 e.lowFlag

/-- The 36 bytes of the STATUS reply (R179). -/
def State.statusData (s : State) : List Byte :=
  b8 s.faults.cause.number ++ s.clock.statusBytes ++ s.store.statusBytes ++
    b8 s.board.entries.length ++ b8 s.board.gone.length ++ b8 s.notices.list.length ++
    s.panelStatusBytes ++ s.energy.statusBytes ++ b16 s.faults.latched.toNat ++ b16 s.faults.news.toNat

/-- The state with its Fault Unit replaced. -/
def State.setFaults (s : State) (f : FaultUnit) : State := { s with faults := f }

/-- STATUS (R178, R179): every value as it stands, and the news set emptied at the same moment, before the reply's news flag is
formed. -/
def execStatus (s : State) : Host.Outcome State Fault Refusal :=
  .next <| s.take 0x01 fun _ s => (s.setFaults { s.faults with news := 0 }).reply .ok s.statusData

/-! ### BOARD_READ (R180, R181) -/

/-- The origin byte (R180). -/
def Origin.number : Origin → Nat
  | .current => 1
  | .next => 2
  | .extra => 3

/-- The state byte (R180). -/
def EntryState.number : EntryState → Nat
  | .planned => 1
  | .live => 2
  | .lapsed => 3
  | .cancelled => 4

/-- A time in three bytes, 0x800000 when absent (R180). -/
def timeBytes (t : Option Int) : List Byte :=
  match t with
  | none => b24 0x800000
  | some x => s24 x

/-- The 17 bytes of an entry (R180). -/
def Entry.bytes (e : Entry) : List Byte :=
  b16 e.key.route ++ b16 e.key.trip ++ b8 e.origin.number ++ b8 e.state.number ++ b8 e.dest ++ b8 e.platform ++
    timeBytes e.sched ++ timeBytes (e.pred.map (·.second)) ++ timeBytes (e.pred.map (·.stamp))

/-- The range test of BOARD_READ (R180). -/
def boardReadInRange (p : List Byte) : Bool := 1 ≤ u8 p 0 && u8 p 0 ≤ 32 && 1 ≤ u8 p 1 && u8 p 1 ≤ 8

/-- The entries at positions start to start + count − 1 that are occupied (R180). -/
def Board.slice (b : Board) (start count : Nat) : List Entry := (b.entries.drop (start - 1)).take count

/-- BOARD_READ (R180). -/
def execBoardRead (s : State) : Host.Outcome State Fault Refusal :=
  .next <| s.take 0x0F fun p s =>
    if boardReadInRange p then
      let l := s.board.slice (u8 p 0) (u8 p 1)
      s.reply .ok (b8 s.board.entries.length ++ b8 l.length ++ l.flatMap Entry.bytes)
    else s.reply .range []

/-! ### FAULT_READ and FAULT_CLEAR (R175, R176) -/

/-- The 10 bytes of a fault record (R176). -/
def FaultRecord.bytes (f : FaultRecord) : List Byte :=
  flag8 true ++ b8 f.code.cls.code ++ b16 f.code.detail ++
    match f.stamp with
    | none => flag8 false ++ b16 0 ++ b24 0
    | some t => flag8 true ++ b16 t.date ++ b24 t.wall

/-- A record's place in the reply; an empty record is sent with every byte 0 (R176). -/
def recordBytes : Option FaultRecord → List Byte
  | none => List.replicate 10 0
  | some f => f.bytes

/-- FAULT_READ (R176). -/
def execFaultRead (s : State) : Host.Outcome State Fault Refusal :=
  .next <| s.take 0x10 fun _ s =>
    s.reply .ok (recordBytes s.faults.first ++ recordBytes s.faults.last ++ b16 s.faults.count)

/-- Steps 2 and 3 of FAULT_CLEAR (R144, R175). -/
def State.clearFaults (s : State) : State :=
  { s with
    faults := { s.faults with latched := 0, first := none, count := 0 }
    energy := { s.energy with lowFlag := false } }

/-- FAULT_CLEAR (R175): the data is formed first; a cleared class at HOLD is a grant attempt event, for which the reply does
not wait. -/
def execFaultClear (s : State) : Host.Outcome State Fault Refusal :=
  .next <| State.settle <| s.take 0x11 fun _ s =>
    let data := b16 s.faults.latched.toNat ++ b16 s.faults.count
    s.clearFaults.eitherOrder (fun t => t.reply .ok data) fun t => if s.holdLatched then t.noteAttempt else t

end Sys2Proof.Machine
end

