-- ==== Sys2Proof/Machine/Recompose.lean ====
section
/-! DEFINITION. Operations that cross blocks: a recomposition with its hand-overs, queuing a full clean, the board's
hand-over, deciding the shown notice, the frontlight. Each may bring jobs into the queue, and so a grant attempt. -/

namespace Sys2Proof.Machine

/-! ### Recomposition (R87 to R91, R120) -/

/-- A hand-over naming a tile row: formation runs, and a job that joins the queue is a grant attempt event (R120,
R149). -/
def State.handOver (s : State) (r : Nat) : State :=
  let a := s.tiles.formRow s.notices.jobClass r
  if a.2 then (s.setTiles a.1).noteAttempt else s.setTiles a.1

/-- Hand-overs in order. -/
def State.handOverAll (s : State) : List Nat → State
  | [] => s
  | r :: rs => (s.handOver r).handOverAll rs

/-- A recomposition of some bands (R87, R89). -/
def State.recompose (s : State) (b : Bands) : State := (s.compose b).1.handOverAll (s.compose b).2

/-- Queue a full clean unless one is in the queue; its joining is a grant attempt event (R127, R128, R149). -/
def State.queueFullClean (s : State) : State :=
  if s.tiles.queueClean.2 then (s.setTiles s.tiles.queueClean.1).noteAttempt else s

/-- Replace the Tile Map by the result of one of its operations, and note an attempt when a job joined. The jobs of all its rows
are formed before that one attempt, which is the model's choice (R149, notes/assumptions/56.md). -/
def State.takeTiles (s : State) (a : TileMap × Bool) : State :=
  if a.2 then (s.setTiles a.1).noteAttempt else s.setTiles a.1

/-- The board's rebuild with its hand-over (R6, R22). -/
def State.rebuildBoard (s : State) : State := s.rebuild.recompose rowBands

/-! ### The Notice List's decision (R111, R112) -/

/-- The lowest priority number present (R111). -/
def topPriority : List Notice → Option Nat
  | [] => none
  | n :: ns =>
    match topPriority ns with
    | none => some n.priority
    | some p => some (min n.priority p)

/-- The top set in posting order (R111). -/
def topSet (l : List Notice) : List Notice := l.filter fun n => some n.priority == topPriority l

/-- The rotation position after a decision: kept while it names a notice of the top set, else the first of the top
set, unset when the list is empty (R111). -/
def decidePosition (n : Notices) : Option Nat :=
  if (topSet n.list).any (fun x => some x.id == n.position) then n.position else (topSet n.list).head?.map (·.id)

/-- The list after a decision (R111). -/
def Notices.decided (n : Notices) : Notices := { n with position := decidePosition n }

/-- What counts as the shown notice: its id, text id and priority, or that none is shown (R111). -/
def Notices.shownView (n : Notices) : Option (Nat × Nat × Nat) := n.shown.map fun x => (x.id, x.text, x.priority)

/-- The top set as a set of ids with the top priority: what R112 calls a change of the top set is a change of this. -/
def Notices.topView (n : Notices) : Option Nat × List Nat := (topPriority n.list, (topSet n.list).map (·.id))

/-- A changed list is decided afresh, and the rotation timer restarts when the top set changed (R111, R112).
The Boolean says whether the shown notice changed. -/
def State.decideNotices (s : State) (l : List Notice) : State × Bool :=
  let old := s.notices
  let new : Notices := Notices.decided { old with list := l }
  ({ s with
      notices := new
      timers := if old.topView = new.topView then s.timers
        else { s.timers with rotation := s.timers.rotation.start } },
    old.shownView != new.shownView)

/-! ### The frontlight (R146, R147) -/

/-- The FL duty of a window and conserve state (R147). -/
def ConfigRecord.duty (c : ConfigRecord) (window conserve : Bool) : Nat :=
  if window then (if conserve then c.param 43 else c.param 42) else 0

/-- The duty set afresh (R147). -/
def State.setDuty (s : State) : State :=
  { s with energy := { s.energy with duty := s.cfg.duty s.energy.window s.energy.conserve } }

/-- The window set, and the duty with it (R146, R147). -/
def State.setWindow (s : State) (on : Bool) : State := State.setDuty { s with energy := { s.energy with window := on } }

/-- A wall minute lies in the frontlight window (R146). -/
def ConfigRecord.lit (c : ConfigRecord) (w : Nat) : Bool :=
  if c.param 40 < c.param 41 then decide (c.param 40 ≤ w) && decide (w < c.param 41)
  else if c.param 41 < c.param 40 then decide (c.param 40 ≤ w) || decide (w < c.param 41)
  else false

end Sys2Proof.Machine
end

