-- ==== Sys2Proof/Machine/Link.lean ====
section
/-! DEFINITION. The Link family (12): the receiver, the request queue, the transmitter, BAD_KIND, CLEAN_NOW and RESET. The
request reset itself stands in Machine/Panel.lean. -/

namespace Sys2Proof.Machine

/-! ### The receiver (R183, R184) -/

/-- A frame is complete: its bytes after the marker are the length L, kind, tag, L bytes and the check. -/
def frameComplete (bytes : List Byte) : Bool := 5 ≤ bytes.length && bytes.length == u8 bytes 0 + 5

/-- The check covers the length, kind, tag and payload (R183). -/
def frameGood (bytes : List Byte) : Bool :=
  (crc16 (bytes.take (bytes.length - 2))).toNat == u16 bytes (bytes.length - 2)

/-- The request a frame carries (R183). -/
def frameRequest (bytes : List Byte) : Request :=
  ⟨bytes.getD 1 0, bytes.getD 2 0, (bytes.drop 3).take (u8 bytes 0)⟩

/-- A checked frame joins the queue, or is answered QUEUE_FULL when 8 requests are present (R185). -/
def State.handFrame (s : State) (r : Request) : State :=
  if s.link.requests.length < 8 then { s with link := { s.link with requests := s.link.requests ++ [r] } }
  else s.replyQueueFull r

/-- The state with its receiver replaced. -/
def State.setReceiver (s : State) (r : Receiver) : State := { s with link := { s.link with receiver := r } }

/-- One good byte on RXD (R184). -/
def State.receiveByte (s : State) (b : Byte) : State :=
  match s.link.receiver with
  | .hunt => if b = 0xA5 then s.setReceiver (.frame []) else s
  | .frame bytes =>
    let bytes := bytes ++ [b]
    if 240 < u8 bytes 0 then s.setReceiver .hunt
    else if frameComplete bytes then
      (if frameGood bytes then (s.setReceiver .hunt).handFrame (frameRequest bytes) else s.setReceiver .hunt)
    else s.setReceiver (.frame bytes)

/-- Bytes in order. -/
def State.receiveBytes (s : State) : List Byte → State
  | [] => s
  | b :: bs => (s.receiveByte b).receiveBytes bs

/-- FRAME_RECEIVED (R184, R185): RXD is ignored in reset and without power (R193). -/
def execFrameReceived (bytes : List Byte) (s : State) : Host.Outcome State Fault Refusal :=
  .next (if s.powered then s.receiveBytes bytes else s)

/-- FRAME_GAP_TIMEOUT (R184): the partial frame is discarded; the byte that ends the gap is then taken in HUNT. -/
def execFrameGapTimeout (s : State) : Host.Outcome State Fault Refusal := .next (s.setReceiver .hunt)

/-- FRAMING_ERROR (R184): the partial frame and the byte are dropped. -/
def execFramingError (s : State) : Host.Outcome State Fault Refusal := .next (s.setReceiver .hunt)

/-! ### The transmitter (R187) -/

/-- REPLY_SENT (R187): the first reply waiting to be sent has gone; nothing happens when none waits. -/
def execReplySent (s : State) : Host.Outcome State Fault Refusal :=
  .next { s with link := { s.link with
    replies := s.link.replies.tail
    resetAfter := s.link.resetAfter.map (· - 1) } }

/-! ### Requests of the link -/

/-- BAD_KIND (R186): the head request, of no known kind, is refused with the header alone. -/
def execBadKind (s : State) : Host.Outcome State Fault Refusal :=
  .next <| match s.link.requests with
    | [] => s
    | r :: _ => if s.takesRequests && !kindKnown r.kind.toNat then s.reply .badKind [] else s

/-- CLEAN_NOW (R191). -/
def execCleanNow (s : State) : Host.Outcome State Fault Refusal :=
  .next <| State.settle <| s.take 0x12 fun _ s =>
    let a := s.tiles.queueClean
    if a.2 then (s.setTiles a.1).eitherOrder (fun t => t.reply .ok (flag8 true)) State.noteAttempt
    else s.reply .ok (flag8 false)

/-- RESET (R192): the OK reply is formed first; the reset waits until that reply, and those before it, are sent. The roles held at
this moment are those its rebuild will refill from (R43). -/
def execReset (s : State) : Host.Outcome State Fault Refusal :=
  .next <| s.take 0x13 fun _ s =>
    let t := s.reply .ok []
    { t with
      link := { t.link with resetAfter := some t.link.replies.length }
      resetRoles := s.store.roles }

end Sys2Proof.Machine
end

