-- ==== Sys2Proof/Machine/Notices.lean ====
section
/-! DEFINITION. The Notices family (07): NOTICE_POST, NOTICE_WITHDRAW, ROTATION, and the expiry step of a sweep. -/

namespace Sys2Proof.Machine

/-- The end that a NOTICE_POST carries (R107, R108): today's date with the carried second. -/
def postedEnd (p : List Byte) (date : Nat) : Option NoticeEnd := if u8 p 3 = 1 then some ⟨date, u24 p 4⟩ else none

/-- The first failing test of a NOTICE_POST, or none (R107). -/
def State.postFault (s : State) (p : List Byte) : Option Result :=
  if u8 p 0 = 0 ∨ u8 p 2 = 0 ∨ 4 < u8 p 2 ∨ 1 < u8 p 3 ∨ (u8 p 3 = 1 ∧ 86399 < u24 p 4) then some .range
  else
    match s.clock.time with
    | none =>
      if u8 p 3 = 1 then some .clockUnset
      else if !s.notices.list.any (·.id == u8 p 0) && 8 ≤ s.notices.list.length then some .full else none
    | some t =>
      if u8 p 3 = 1 ∧ u24 p 4 ≤ t.second then some .range
      else if !s.notices.list.any (·.id == u8 p 0) && 8 ≤ s.notices.list.length then some .full else none

/-- The list with a notice posted: replaced in its place, or appended (R108). -/
def postNotice (l : List Notice) (n : Notice) : List Notice :=
  if l.any (·.id == n.id) then l.map fun x => if x.id = n.id then n else x else l ++ [n]

/-- A notice's posting order number: its place, counted from 1 (R106). -/
def postingNumber : List Notice → Nat → Nat
  | [], _ => 0
  | n :: ns, id => if n.id = id then 1 else (if (postingNumber ns id) = 0 then 0 else postingNumber ns id + 1)

/-- A changed list with its notice change handed to the Composer, and the reply, which waits for the hand-over and not
for the recomposition (R108, R109). -/
def State.noticeChange (s : State) (l : List Notice) (answer : State → State) : State :=
  let a := s.decideNotices l
  a.1.eitherOrder answer fun t => if a.2 then t.recompose noticeBand else t

/-- NOTICE_POST (R107, R108). -/
def execNoticePost (s : State) : Host.Outcome State Fault Refusal :=
  .next <| State.settle <| s.take 0x0B fun p s =>
    match s.postFault p with
    | some e => s.reply e (b8 (u8 p 0) ++ b8 0 ++ b8 s.notices.list.length)
    | none =>
      let n : Notice := ⟨u8 p 0, u8 p 1, u8 p 2, postedEnd p ((s.clock.time.map (·.date)).getD 0)⟩
      let l := postNotice s.notices.list n
      s.noticeChange l fun t => t.reply .ok (b8 n.id ++ b8 (postingNumber l n.id) ++ b8 l.length)

/-- NOTICE_WITHDRAW (R109). -/
def execNoticeWithdraw (s : State) : Host.Outcome State Fault Refusal :=
  .next <| State.settle <| s.take 0x0C fun p s =>
    let id := u8 p 0
    if id = 0 then s.reply .range (b8 id ++ b8 s.notices.list.length)
    else if s.notices.list.any (·.id == id) then
      let l := s.notices.list.filter (·.id != id)
      s.noticeChange l fun t => t.reply .ok (b8 id ++ b8 l.length)
    else s.reply .unknownId (b8 id ++ b8 s.notices.list.length)

/-- A notice with an end has expired at a date and second (R110). -/
def Notice.expired (n : Notice) (date second : Nat) : Bool :=
  match n.ends with
  | none => false
  | some e => e.date != date || decide (e.second ≤ second)

/-- The expiry step of a sweep (R110). -/
def State.expireNotices (s : State) : State :=
  match s.clock.time with
  | none => s
  | some t =>
    let a := s.decideNotices (s.notices.list.filter fun n => !n.expired t.date t.second)
    if a.2 then a.1.recompose noticeBand else a.1

/-- The notice of a list that follows an id, wrapping to the first (R113). -/
def followId (l : List Notice) (id : Option Nat) : Option Nat :=
  match (l.dropWhile fun n => some n.id != id).tail.head? with
  | some n => some n.id
  | none => l.head?.map (·.id)

/-- ROTATION (R67, R113), when the count has reached zero: the timer runs on, and the position advances when the top set holds more
than one notice and conserve is not in force. -/
def execRotation (s : State) : Host.Outcome State Fault Refusal :=
  if s.timers.rotation.due then
    let s' : State := { s with timers := { s.timers with rotation := s.timers.rotation.expire } }
    if 2 ≤ (topSet s.notices.list).length && !s.energy.conserve then
      .next <| State.settle <| State.recompose
        { s' with notices := { s.notices with position := followId (topSet s.notices.list) s.notices.position } } noticeBand
    else .next s'
  else .next s

end Sys2Proof.Machine
end

