-- ==== Sys2Proof/Machine/Panel.lean ====
section
/-! DEFINITION. The Panel family (10): RISE_EXPIRY, RETRY_PAUSE_EXPIRY, LINGER_EXPIRY, FRAME_END, BROWNOUT,
SUPPLY_LEVEL_RISE, IDENTITY_EXCHANGE, and REQUEST_RESET, which the Panel Drive may take only after an exchange. -/

namespace Sys2Proof.Machine

/-! ### The booster and the job in hand -/

/-- BEN high, state READY, no frame being driven. -/
def Drive.raised (d : Drive) : Drive := { d with booster := .ready, ben := true }

/-- The rise and retry pause timers stop (R161, R167). -/
def Timers.stopRise (t : Timers) : Timers := { t with rise := t.rise.stop, retry := t.retry.stop }

/-- The linger timer stops. -/
def Timers.stopLinger (t : Timers) : Timers := { t with linger := t.linger.stop }

/-- The linger timer is started (R160). -/
def Timers.startLinger (t : Timers) : Timers := { t with linger := t.linger.start }

/-- The granted job goes back to the queue, and the Panel Drive has none (R133). The grant attempt is the caller's. -/
def State.returnGranted (s : State) : State :=
  match s.drive.granted with
  | none => s
  | some n =>
    (s.setDrive { s.drive with granted := none }).setTiles (s.tiles.returnJob s.notices.jobClass n)

/-! ### The rise (R158, R159) -/

/-- A rise fails with no retries left: BEN low, OFF, the job returned, BOOSTER/301, then the return's attempt (R158). -/
def State.failRise (s : State) : State :=
  State.attempt <| State.raise (s.setDrive s.drive.lowered).returnGranted .booster301

/-- A failing expiry with retries left (R158). -/
def State.pauseRise (s : State) : State :=
  { s with
    drive := { s.drive with ben := false, retriesUsed := s.drive.retriesUsed + 1 }
    timers := { s.timers with retry := s.timers.retry.start } }

/-- RISE_EXPIRY (R158): BGOOD is read once. -/
def execRiseExpiry (bgood : Bool) (s : State) : Host.Outcome State Fault Refusal :=
  .next <| if s.timers.rise.running && s.drive.booster == .rising then
      let t := { s with timers := { s.timers with rise := s.timers.rise.expire } }
      if bgood then State.startDrive (t.setDrive t.drive.raised)
      else if t.drive.retriesUsed < t.cfg.param 26 then t.pauseRise
      else t.failRise
    else s

/-- RETRY_PAUSE_EXPIRY (R159): BEN is raised again and the rise timer started. -/
def execRetryPauseExpiry (s : State) : Host.Outcome State Fault Refusal :=
  .next <| if s.timers.retry.running && s.drive.booster == .rising then
      State.startRise { s with timers := { s.timers with retry := s.timers.retry.expire } }
    else s

/-! ### The supply level (R161, R166) -/

/-- The level of the comparator, events that wait for an exchange included. -/
def supplyLevel : Bool → List DriveEvent → Bool
  | level, [] => level
  | _, .brownout :: rest => supplyLevel false rest
  | _, .supplyRise :: rest => supplyLevel true rest
  | level, _ :: rest => supplyLevel level rest

/-- The comparator reads ABOVE. -/
def State.above (s : State) : Bool := supplyLevel s.drive.supplyAbove s.drive.held

/-- A brownout acts by the booster state (the table of R161). While DRIVING it is kept for the frame end (R166, R167). -/
def State.takeBrownout (s : State) : State :=
  let t := s.setDrive { s.drive with supplyAbove := false }
  match s.drive.booster with
  | .off => t
  | .rising =>
    State.attempt <| State.returnGranted
      { t with drive := t.drive.lowered, timers := t.timers.stopRise }
  | .ready => { t with drive := t.drive.lowered, timers := t.timers.stopLinger }
  | .driving => t.setDrive { t.drive with brownedOut := true }

/-- A rise of the level starts the rise of a job waiting for supply (R161). -/
def State.takeSupplyRise (s : State) : State :=
  let t := s.setDrive { s.drive with supplyAbove := true }
  if s.drive.booster = .off ∧ s.drive.granted.isSome then t.startRise else t

/-! ### Linger and frames (R160, R165 to R167) -/

/-- A linger expiry in READY lowers the booster (R160). -/
def State.takeLingerExpiry (s : State) : State :=
  if s.drive.booster = .ready then s.setDrive s.drive.lowered else s

/-- The end of a cut frame; a grant held for it is then taken (R167). DRIVE/312 is the first record unless a fault was raised since the
reset's clearing (R174, R182, notes/assumptions/62.md). -/
def State.endCutFrame (s : State) : State :=
  let d := { s.drive with cutFrame := false, brownedOut := false }
  let t := if s.drive.brownedOut then s.setDrive d.lowered
    else { s with drive := d.raised, timers := s.timers.startLinger }
  let u := t.raise .drive312
  if u.drive.granted.isSome then u.meetBooster else u

/-- The frame end after a brownout: OFF, the abort with its attempt, then DRIVE/311 (R166). -/
def State.abortDrive (s : State) : State :=
  match s.drive.granted with
  | none => s
  | some n =>
    State.raise
      (State.attempt <| (s.setDrive { s.drive.lowered with granted := none, brownedOut := false }).setTiles
        (s.tiles.abortJob s.notices.jobClass n s.sizeDiffers)) .drive311

/-- The last frame's end: READY, the linger timer, the completion with its attempt (R165). -/
def State.completeDrive (s : State) : State :=
  match s.drive.granted with
  | none => s
  | some n =>
    State.attempt
      { s with
        drive := { s.drive.raised with granted := none }
        timers := s.timers.startLinger
        tiles := s.tiles.completeJob s.notices.jobClass n (s.cfg.param 17) s.sizeDiffers }

/-- A frame end while DRIVING (R165, R166, R167). -/
def State.takeFrameEnd (s : State) : State :=
  if s.drive.booster ≠ .driving then s
  else if s.drive.cutFrame then s.endCutFrame
  else
    let t := s.setDrive { s.drive with framesDriven := s.drive.framesDriven + 1 }
    if t.drive.brownedOut then t.abortDrive
    else if t.drive.framesDriven = t.drive.frameCount then t.completeDrive
    else t

/-! ### The request reset (R192) -/

/-- The Panel Drive and its timers at a request reset (R71, R167). -/
def State.resetDrive (s : State) : State :=
  let d := { s.drive with granted := none }
  let t := s.timers.stopRise
  match s.drive.booster with
  | .off => { s with drive := d, timers := t.stopLinger }
  | .rising => { s with drive := d.lowered, timers := t.stopLinger }
  | .ready => { s with drive := d, timers := t.startLinger }
  | .driving => { s with drive := { d with cutFrame := true }, timers := t.stopLinger }

/-- A row record without its pending increase (R93). -/
def RowRecord.clearPending : RowRecord → RowRecord
  | .countdown k v _ => .countdown k v none
  | r => r

/-- What the blocks clear and keep at a request reset, before the board is rebuilt (R43, R71, R93, R115, R154, R167, R182,
R192): the link's replies through the RESET reply have been sent. -/
def State.resetBlocks (s : State) : State :=
  let a := s.abortUpload
  State.resetDrive { a with
    link := { a.link with
      requests := []
      write := none
      resetAfter := none
      replies := a.link.replies.drop (a.link.resetAfter.getD 0) }
    resetRoles := ⟨none, none⟩
    faults := { a.faults with latched := 0, first := none, last := none, count := 0, news := 0, cause := .request }
    notices := ⟨[], none⟩
    energy := { a.energy with lowFlag := false }
    composer := { a.composer with rows := a.composer.rows.map RowRecord.clearPending }
    timers := { a.timers with
      sweep := a.timers.sweep.start
      sample := a.timers.sample.start
      rotation := a.timers.rotation.start } }

/-- The request reset, one event for every block (R192): the board is rebuilt, from the roles held when the RESET request was taken
(R43; R27's "at that moment" is read as the same moment, notes/assumptions/53.md), before the Composer recomposes, and the Tile Map
empties its queue before the hand-overs run formation. The model's choices: the Notice List's change brings no recomposition beside
those of the board's hand-over and of R93 (notes/assumptions/54.md); a CONTENT fault of the recompositions comes before the DRIVE/312
of a cut frame and so is the first record (R182, notes/assumptions/62.md); and the Fault Unit clears before the board's rebuild, so
that a CONTENT/503 of it stands (R182, notes/assumptions/63.md). -/
def State.takeRequestReset (s : State) : State :=
  let a := s.resetBlocks.rebuildFrom s.resetRoles
  ((a.takeTiles (a.tiles.requestReset a.notices.jobClass)).recompose rowBands).recompose allBands

/-! ### Events at the Panel Drive during an identity exchange (R170) -/

/-- An event that the Panel Drive takes. -/
def State.takeDriveEvent (s : State) : DriveEvent → State
  | .brownout => s.takeBrownout
  | .supplyRise => s.takeSupplyRise
  | .lingerExpiry => s.takeLingerExpiry
  | .frameEnd => s.takeFrameEnd
  | .requestReset => s.takeRequestReset

/-- An event that reaches the Panel Drive: during an exchange it waits (R170). -/
def State.driveEvent (s : State) (e : DriveEvent) : State :=
  if s.drive.exchange.isSome then s.setDrive { s.drive with held := s.drive.held ++ [e] } else s.takeDriveEvent e

/-- Events in order. -/
def State.driveEvents (s : State) : List DriveEvent → State
  | [] => s
  | e :: es => (s.driveEvent e).driveEvents es

/-- The events that waited reach the Panel Drive, in the order they came (R170). A linger expiry that waited behind a request reset
still acts, although the reset has restarted the timer: the model's choice (R67, R71; notes/assumptions/59.md). -/
def State.releaseHeld (s : State) : State := (s.setDrive { s.drive with held := [] }).driveEvents s.drive.held

/-- LINGER_EXPIRY (R67, R160), when the count has reached zero. -/
def execLingerExpiry (s : State) : Host.Outcome State Fault Refusal :=
  .next <| if s.timers.linger.due then
      State.settle <| State.driveEvent { s with timers := { s.timers with linger := s.timers.linger.expire } } .lingerExpiry
    else s

/-- FRAME_END (R165, R166, R167): frames end only while DRIVING, and one at a time. -/
def execFrameEnd (s : State) : Host.Outcome State Fault Refusal :=
  .next <| if s.drive.booster == .driving && !s.drive.held.contains .frameEnd then
      State.settle (s.driveEvent .frameEnd)
    else s

/-- The comparator comes to a level: a change of it is a brownout or a rise at the Panel Drive (R161). -/
def State.moveLevel (s : State) (above : Bool) : State :=
  if above = s.above then s else s.driveEvent (if above then .supplyRise else .brownout)

/-- The comparator at a reading of VSTORE, against Vf, the P20 in force (R161). A reading equal to Vf leaves the level as it is, the
model's choice (notes/assumptions/29.md). -/
def State.seeVoltage (s : State) (mv : Int) : State :=
  if mv = s.cfg.param 20 then s else s.moveLevel (decide ((s.cfg.param 20 : Int) < mv))

/-- A new P20 moves the threshold (R161). VSTORE at that moment is a free value on the side of the old Vf that the comparator
reports (notes/assumptions/29.md). -/
def State.moveThreshold (s : State) (old : Nat) : State :=
  let v := Config.storageVoltage s.fresh.1
  s.fresh.2.seeVoltage (if s.above then max v (old + 1) else min v old)

/-- BROWNOUT (R161): a fall from ABOVE. -/
def execBrownout (s : State) : Host.Outcome State Fault Refusal :=
  .next <| if s.powered && s.above then State.settle (s.moveLevel false) else s

/-- SUPPLY_LEVEL_RISE (R161): a rise from BELOW. -/
def execSupplyLevelRise (s : State) : Host.Outcome State Fault Refusal :=
  .next <| if s.powered && !s.above then State.settle (s.moveLevel true) else s

/-- REQUEST_RESET (R192): once the RESET reply has been sent in full. -/
def execRequestReset (s : State) : Host.Outcome State Fault Refusal :=
  .next <| if s.link.resetAfter.isSome && !s.drive.held.contains .requestReset then
      State.settle (s.driveEvent .requestReset)
    else s

/-! ### IDENTITY_EXCHANGE (R170, R171, R194) -/

/-- The fault of an answer against the applied geometry, or none at a match (R170). -/
def TileMap.identityFault (tm : TileMap) : Option (Byte × Byte) → Option FaultCode
  | none => some .panel202
  | some (w, h) => if w.toNat = tm.wt ∧ h.toNat = tm.ht then none else some .panel201

/-- The fault of an exchange, if it has one (R170). -/
def State.raiseIdentity (s : State) (fault : Option FaultCode) : State :=
  match fault with
  | none => s
  | some f => s.raise f

/-- The outcome of a full clean's exchange, its fault raised, decides the grant (the table of R171). The PANEL disposition is read
from the P39 in force at the end of the exchange, the model's choice where a CONFIG_SET of P39 verifies during its 10 ms (R173,
notes/assumptions/61.md). -/
def State.decideClean (s : State) (fault : Option FaultCode) : State :=
  if fault.isSome && s.classHolds .panel then s.returnGranted.attempt
  else if s.drive.granted.isSome then s.meetBooster
  else s

/-- The events that waited, up to a request reset, are taken with the granted clean set aside: the booster and the supply level
move, and the clean then meets them as they stand (R160, R170). -/
def State.takeHeldFirst (s : State) : State :=
  let t := (s.setDrive { s.drive with granted := none, held := [] }).driveEvents (s.drive.held.takeWhile (· != .requestReset))
  t.setDrive { t.drive with
    granted := s.drive.granted
    held := t.drive.held ++ s.drive.held.dropWhile (· != .requestReset) }

/-- The clean's grant goes on by the outcome of its exchange. Where events wait for the exchange too, the grant and they reach the
Panel Drive together, and the schedule says which is taken first (R160, R170, notes/assumptions/9.md). -/
def State.endCleanExchange (s : State) (fault : Option FaultCode) : State :=
  let t := s.raiseIdentity fault
  if t.drive.held = [] ∨ t.drive.granted = none then t.decideClean fault
  else if t.choose.1 then t.choose.2.takeHeldFirst.decideClean fault
  else t.choose.2.decideClean fault

/-- Steps 5 to 8 of start-up, from the answer on (R194). -/
def State.endStartUp (s : State) (fault : Option FaultCode) : State :=
  let b : State := { s.raiseIdentity fault with phase := .running }
  State.addNews (State.raise (State.attempt (b.setTiles b.tiles.queueClean.1)) .clock701) .startUpComplete

/-- IDENTITY_EXCHANGE (R170, R171, R194): the exchange ends and its outcome is acted on; then the events that waited for its
end are taken. At start-up they come after its steps 6 to 8, and wait on when step 6 grants the clean, whose own exchange then
begins: the model's choice (notes/assumptions/57.md). -/
def execIdentityExchange (answer : Option (Byte × Byte)) (s : State) : Host.Outcome State Fault Refusal :=
  .next <| match s.drive.exchange with
    | none => s
    | some .startUp =>
      State.settle <| State.releaseHeld <|
        (s.setDrive { s.drive with exchange := none }).endStartUp (s.tiles.identityFault answer)
    | some .clean =>
      State.settle <| State.releaseHeld <|
        (s.setDrive { s.drive with exchange := none }).endCleanExchange (s.tiles.identityFault answer)

end Sys2Proof.Machine
end

