-- ==== Sys2Proof/Machine/Predict.lean ====
section
/-! DEFINITION. The Predict family (03): PREDICT. The record's stages and the board's rules stand in Machine/Board.lean. -/

namespace Sys2Proof.Machine

/-- PREDICT (R45, R52): refused CLOCK_UNSET with seven counts of 0, or every record in turn, one hand-over of the board if any
record changed it (R6), and OK with the counts. -/
def execPredict (s : State) : Host.Outcome State Fault Refusal :=
  .next <| State.settle <| s.take 0x0A fun p s =>
    if s.clockRunning then
      let a := s.intakeAll (predictsAt p (p.length / 12) 0)
      a.1.eitherOrder (fun t => t.reply .ok (predictCounts a.2.1)) fun t => if a.2.2 then t.recompose rowBands else t
    else s.reply .clockUnset (predictCounts [])

end Sys2Proof.Machine
end

