-- ==== Sys2Proof/Machine/Supply.lean ====
section
/-! DEFINITION. The Supply family (09 §9.1, §9.5): SUPPLY_SAMPLE, and the sample that start-up shares with it. -/

namespace Sys2Proof.Machine

/-- A storage voltage saturated to 0 to 5,500 mV (R136). -/
def saturateVs (mv : Int) : Nat := (max 0 (min 5500 mv)).toNat

/-- A temperature saturated to −40 to +85 degrees (R136). -/
def saturateTemp (c : Int) : Int := max (-40) (min 85 c)

/-- The low-storage level in mV, by P21 (R143). -/
def lowLevel (index : Nat) : Nat :=
  match index with
  | 0 => 2100
  | 1 => 2300
  | 2 => 2500
  | 3 => 2700
  | 4 => 2900
  | 5 => 3100
  | 6 => 3400
  | _ => 3700

/-- Steps 1 and 2 of a sample: the saturated readings and E (R136, R137, R138). -/
def State.measure (s : State) (mv c : Int) : State :=
  { s with energy := { s.energy with
      vs := some (saturateVs mv)
      temp := some (saturateTemp c)
      estimate := usableEnergy (s.cfg.param 19) (s.cfg.param 20) (saturateVs mv) } }

/-- Conserve is entered: the flag, the news item, SUPPLY/801 and the duty (R143, R147). -/
def State.enterConserve (s : State) : State :=
  State.setDuty <| (State.addNews { s with energy := { s.energy with conserve := true, lowFlag := true } } .conserveEntered).raise
    .supply801

/-- Conserve is left: the news item and the duty; the flag stays (R143, R147). -/
def State.leaveConserve (s : State) : State :=
  State.setDuty <| State.addNews { s with energy := { s.energy with conserve := false } } .conserveLeft

/-- The flag is set again and SUPPLY/801 raised again (R144). -/
def State.repeatLow (s : State) : State :=
  State.raise { s with energy := { s.energy with lowFlag := true } } .supply801

/-- Step 3, the conserve test against a storage voltage (R143, R144). -/
def State.judgeConserve (s : State) (vs : Nat) : State :=
  let level := lowLevel (s.cfg.param 21)
  if s.energy.conserve then
    if level + 100 ≤ vs then s.leaveConserve
    else if vs < level ∧ s.energy.lowFlag = false then s.repeatLow
    else s
  else if vs < level then s.enterConserve
  else s

/-- Steps 1 to 3, the Energy Account's own (R137). -/
def State.sampleOwn (s : State) (mv c : Int) : State := (s.measure mv c).judgeConserve (saturateVs mv)

/-- Step 5 at the Panel Drive: a temperature in no band raises its TEMP fault (R162), during an identity exchange too, which is
the model's choice (notes/assumptions/52.md). -/
def State.tempFault (s : State) (c : Int) : State :=
  if saturateTemp c < -10 then s.raise .temp401
  else if 55 < saturateTemp c then s.raise .temp402
  else s

/-- Step 4: a change of the conserve state reaches the Composer, and its end the arbiter (R137, R145). The Composer recomposes
before the arbiter's attempt, the model's choice of an order (notes/assumptions/51.md). -/
def State.handConserve (s : State) (was : Bool) : State :=
  if s.energy.conserve = was then s
  else if was then (s.recompose allBands).noteAttempt
  else s.recompose allBands

/-- A sample while the part runs (R137). The Composer and the Panel Drive take what they are handed in either order; the arbiter
takes the sample after both (notes/assumptions/51.md, 52.md). -/
def State.sample (s : State) (mv c : Int) : State :=
  ((s.sampleOwn mv c).eitherOrder (fun t => t.handConserve s.energy.conserve) fun t => t.tempFault c).noteAttempt

/-- SUPPLY_SAMPLE (R67, R136, R137), when the count has reached zero: the timer runs on, and a sample is taken. The comparator
compares the same VSTORE, and an edge that this brings comes before the sample (R161, notes/assumptions/29.md). -/
def execSupplySample (mv c : Int) (s : State) : Host.Outcome State Fault Refusal :=
  .next <| if s.timers.sample.due then
      State.settle <| State.sample
        (State.seeVoltage { s with timers := { s.timers with sample := s.timers.sample.expire } } mv) mv c
    else s

end Sys2Proof.Machine
end

