-- ==== Sys2Proof/Machine/Resets.lean ====
section
/-! DEFINITION. The Resets family (12 §12.5, §12.6): POWER_ON_RESET, LINE_RESET_ASSERT, LINE_RESET_RELEASE, POWER_LOSS, and
start-up up to its identity exchange. The request reset stands in Machine/Panel.lean. -/

namespace Sys2Proof.Machine

/-! ### What the part keeps through a power loss or a line reset -/

/-- The part with every block at its reset values: flash keeps what it holds, with a write in progress cut (R41, R56, R99,
R168, R193). The RESET line stands as it stood; the model's own fields and the queue of commands carry on. -/
def State.dropped (s : State) (phase : Phase) (cause : ResetCause) : State :=
  { State.cleared s.cutWrite.1 phase cause with
    lineLow := s.lineLow
    freeCount := s.cutWrite.2
    schedule := s.schedule
    pending := s.pending }

/-! ### The steps of start-up (R194) -/

/-- Step 1, the record: the configuration to load, and whether STORE/101 is raised. -/
def Item.loadConfig : Item ConfigRecord → ConfigRecord × Bool
  | .erased => (Config.defaults, false)
  | .bad => (Config.defaults, true)
  | .good c => if c.inRange then (c, false) else (Config.defaults, true)

/-- Step 1: the configuration in force, the geometry, the timers' reload values (R72, R134, R194). -/
def State.loadConfig (s : State) : State :=
  let c := s.flash.config.loadConfig.1
  let t : State := { s with
    cfg := c
    timers := .afterReset c
    composer := .afterReset (c.param 1) (c.param 2)
    tiles := .afterReset (c.param 1) (c.param 2) }
  if s.flash.config.loadConfig.2 then t.raise .store101 else t

/-- Step 2, a bank: its record, and its fault when the check fails (R42). -/
def State.checkBank (s : State) (i : BankId) (f : FaultCode) : State :=
  let a := (s.flash.bank i).checked
  let t := s.setStore (s.store.setBank i a.1)
  if a.2 then t.raise f else t

/-- The places of a table's items that are present and in range, and how many items fail (R100). -/
def tableCheck {α : Type} (inRange : α → Bool) : List (Nat × Item α) → List Nat × Nat
  | [] => ([], 0)
  | (k, x) :: rest =>
    match x with
    | .erased => tableCheck inRange rest
    | .bad => ((tableCheck inRange rest).1, (tableCheck inRange rest).2 + 1)
    | .good a =>
      if inRange a then (k :: (tableCheck inRange rest).1, (tableCheck inRange rest).2)
      else ((tableCheck inRange rest).1, (tableCheck inRange rest).2 + 1)

/-- Step 2, the tables: the presence maps, then STORE/104 for each failing text and STORE/105 for each failing glyph
(R100). -/
def State.checkTables (s : State) : State :=
  let t := tableCheck textInRange s.flash.texts
  let g := tableCheck Glyph.inRange s.flash.glyphs
  State.raiseAll { s with presence := ⟨t.1, g.1⟩ } (List.replicate t.2 .store104 ++ List.replicate g.2 .store105)

/-- Step 3: the first sample, which hands nothing to the Composer, and the three timers (R71, R137, R153). The comparator, read
afresh when start-up began, compares the same VSTORE with the P20 just loaded (R155, R161). -/
def State.firstSample (s : State) (mv c : Int) : State :=
  let t := ((s.seeVoltage mv).sampleOwn mv c).tempFault c
  { t with timers := { t.timers with
      sweep := t.timers.sweep.start
      sample := t.timers.sample.start
      rotation := t.timers.rotation.start } }

/-- Step 4: every band is recomposed, and the hand-overs form jobs (R92, R194). -/
def State.firstImage (s : State) : State := (s.compose allBands).1.formAll (s.compose allBands).2

/-- Start-up up to the query of step 5; the answer comes with IDENTITY_EXCHANGE (R194, notes/assumptions/6.md). -/
def State.startUp (s : State) (br1 br0 above : Bool) (mv c : Int) : State :=
  let a : State := { s with
    link := { s.link with br1 := br1, br0 := br0 }
    drive := { s.drive with supplyAbove := above } }
  let b := ((a.loadConfig.checkBank .a .store102).checkBank .b .store103).checkTables
  let d := (b.firstSample mv c).firstImage
  d.setDrive { d.drive with exchange := some .startUp }

/-! ### The commands -/

/-- POWER_ON_RESET (R193, R194): start-up with cause POWER, or, while the RESET line is low, the part is held in reset
(notes/assumptions/37.md). -/
def execPowerOnReset (br1 br0 above : Bool) (mv c : Int) (s : State) : Host.Outcome State Fault Refusal :=
  .next <| if s.lineLow then s.dropped .held .power else (s.dropped .startUp .power).startUp br1 br0 above mv c

/-- The state with the RESET line at a level. -/
def State.setLine (s : State) (low : Bool) : State := { s with lineLow := low }

/-- LINE_RESET_ASSERT (R193): the line is low, and a part with power is held in reset. -/
def execLineResetAssert (s : State) : Host.Outcome State Fault Refusal :=
  .next <| if s.phase = .off then s.setLine true else (s.dropped .held .line).setLine true

/-- LINE_RESET_RELEASE (R193, R194): the line is high, and a part held in reset runs start-up with cause LINE. -/
def execLineResetRelease (br1 br0 above : Bool) (mv c : Int) (s : State) : Host.Outcome State Fault Refusal :=
  .next <| if s.phase = .held then ((s.setLine false).dropped .startUp .line).startUp br1 br0 above mv c else s.setLine false

/-- POWER_LOSS (R168): every block's state is lost, and a write in progress stops at once. The RESET line is not the part's. -/
def execPowerLoss (s : State) : Host.Outcome State Fault Refusal := .next (s.dropped .off .power)

end Sys2Proof.Machine
end

