-- ==== Sys2Proof/Machine/Rounds.lean ====
section
/-! DEFINITION. The Rounds family (04, 01 §1.5): TIME_SET, SECOND_EVENT, SWEEP and ELAPSED_SECOND. -/

namespace Sys2Proof.Machine

/-! ### TIME_SET (R62, R63) -/

/-- The four cases of a taken TIME_SET (R63). -/
inductive TimeCase where
  | firstSet
  | dateChange
  | jump
  | adjust
  deriving DecidableEq, Repr

/-- The case byte of the reply (R63). -/
def TimeCase.number : TimeCase → Nat
  | .firstSet => 1
  | .dateChange => 2
  | .jump => 3
  | .adjust => 4

/-- The case, from the clock just before and the adopted second and date (R63). -/
def timeCase (before : Option ClockTime) (second date : Nat) : TimeCase :=
  match before with
  | none => .firstSet
  | some t =>
    if t.date ≠ date then .dateChange
    else if second + 90 < t.second ∨ t.second + 90 < second then .jump
    else .adjust

/-- The range test of TIME_SET (R62). -/
def timeInRange (p : List Byte) : Bool := u8 p 0 ≤ 23 && u8 p 1 ≤ 59 && u8 p 2 ≤ 59

/-- What a TIME_SET payload makes of the clock, with D from P05 (R61, R62). -/
def adoptedTime (p : List Byte) (dayStart : Nat) : ClockTime :=
  ⟨serviceSecond (u8 p 0 * 3600 + u8 p 1 * 60 + u8 p 2) dayStart, u16 p 3, dayStart⟩

/-- The effects of a case before the Composer recomposes all bands (R63). In JUMP the rebuild's hand-over is recomposed before
CLOCK/702 is raised, the model's choice of an order (notes/assumptions/49.md). In every case that rebuilds, the rows'
recomposition of that hand-over comes before the OK reply, of which R63 says only that it follows the last hand-over: the model's
choice (notes/assumptions/58.md). -/
def State.timeEffects (s : State) : TimeCase → State
  | .firstSet => s.selectBanks.rebuildBoard
  | .dateChange => s.selectBanks.rebuildBoard
  | .jump => s.rebuildBoard.raise .clock702
  | .adjust => s

/-- The clock adopts a time, the second phase restarts, and the new wall minute goes to the Energy Account (R62, R65,
R146). -/
def State.adoptTime (s : State) (t : ClockTime) : State :=
  State.setWindow { s with clock := ⟨some t, 0⟩ } (s.cfg.lit t.wallMinute)

/-- TIME_SET (R62, R63). -/
def execTimeSet (s : State) : Host.Outcome State Fault Refusal :=
  .next <| State.settle <| s.take 0x02 fun p s =>
    if timeInRange p then
      let t := adoptedTime p (s.cfg.param 5)
      let c := timeCase s.clock.time t.second t.date
      ((s.adoptTime t).timeEffects c).eitherOrder (fun u => u.reply .ok (b8 c.number ++ b24 t.second))
        fun u => u.recompose allBands
    else s.reply .range []

/-! ### SECOND_EVENT (R60, R64, R65, R66) -/

/-- The clock after a second event (R60). -/
def ClockTime.tick (t : ClockTime) : ClockTime :=
  if t.second = 86399 then { t with second := 0, date := (t.date + 1) % 65536 } else { t with second := t.second + 1 }

/-- The rollover's work: re-base, bank selection, refill, the hand-over of the board, and the news item (R23, R66). -/
def State.rollover (s : State) : State :=
  State.addNews
    (State.recompose ((s.setBoard (s.board.rebase s.cfg.grace)).selectBanks.refill.1) rowBands) .rolloverDone

/-- The frontlight matches of a wall minute: naming P40 alone the window goes ON, naming P41 or both OFF (R146). -/
def State.frontlightMatch (s : State) (minute : Nat) : State :=
  if minute = s.cfg.param 41 then s.setWindow false
  else if minute = s.cfg.param 40 then s.setWindow true
  else s

/-- The daily clean match (R65, R127). -/
def State.dailyClean (s : State) (minute : Nat) : State := if minute = s.cfg.param 18 then s.queueFullClean else s

/-- A minute tick at a wall minute: refill and the recomposition taken with it, then the matches (R64, R65). The tick first, then
the clean, then the frontlight is the model's choice of an order (notes/assumptions/48.md). -/
def State.minuteTick (s : State) (minute : Nat) : State :=
  ((s.refill.1.recompose tickBands).dailyClean minute).frontlightMatch minute

/-- A second event of a RUNNING clock (R60, R64, R66). -/
def State.secondEvent (s : State) (t : ClockTime) : State :=
  let u := t.tick
  let a : State := { s with clock := ⟨some u, 0⟩ }
  let b := if t.second = 86399 then a.rollover else a
  if u.second % 60 = 0 then b.minuteTick u.wallMinute else b

/-- SECOND_EVENT (R60): an UNSET clock takes none. -/
def execSecondEvent (s : State) : Host.Outcome State Fault Refusal :=
  .next <| match s.clock.time with
    | none => s
    | some t => State.settle (s.secondEvent t)

/-! ### SWEEP (R12, R68, R110) -/

/-- The board's sweep; with the clock UNSET the board is empty and nothing ages (R12). -/
def State.sweepBoard (s : State) : State :=
  if s.clockRunning then s.setBoard (s.board.sweep s.now s.cfg.grace s.cfg.stale) else s

/-- SWEEP (R12, R67, R110), when its count has reached zero: the timer runs on, the board is swept and always handed over, then
notices expire. -/
def execSweep (s : State) : Host.Outcome State Fault Refusal :=
  .next <| if s.timers.sweep.due then
      State.settle <| State.expireNotices <|
        (State.sweepBoard { s with timers := { s.timers with sweep := s.timers.sweep.expire } }).recompose rowBands
    else s

/-! ### ELAPSED_SECOND (R118, R67) -/

/-- The elapsed-second count goes up by one; what follows the top of its range is free (R118). -/
def nextElapsed (n : Nat) : Nat := if n = 4294967295 then Config.elapsedAfterTop.toNat else n + 1

/-- The timers that count in seconds (R67). -/
def Timers.countSecond (t : Timers) : Timers :=
  { t with
    sweep := t.sweep.count
    sample := t.sample.count
    rotation := t.rotation.count
    linger := t.linger.count
    upload := t.upload.count }

/-- ELAPSED_SECOND (R118): counted from a reset on, while the part has power and is not held in reset. -/
def execElapsedSecond (s : State) : Host.Outcome State Fault Refusal :=
  .next <| if s.powered then
      { s with
        tiles := { s.tiles with elapsed := nextElapsed s.tiles.elapsed }
        timers := s.timers.countSecond }
    else s

end Sys2Proof.Machine
end

