-- ==== Sys2Proof/Machine/Uploads.lean ====
section
/-! DEFINITION. The Uploads family (02 §2.3, §2.4): UPLOAD_BEGIN, TRIP_BLOCK, UPLOAD_COMMIT and UPLOAD_ABORT with the ends of
their writes, and UPLOAD_IDLE_TIMEOUT. -/

namespace Sys2Proof.Machine

/-- The state with its flash replaced. -/
def State.setFlash (s : State) (f : Flash) : State := { s with flash := f }

/-! ### UPLOAD_BEGIN (R34) -/

/-- A date in reach: any while UNSET, else N or N + 1 where that exists (R34). -/
def State.dateInReach (s : State) (date : Nat) : Bool :=
  match s.clock.time with
  | none => true
  | some t => date == t.date || (t.date != 65535 && date == t.date + 1)

/-- A bank's record becomes FILLING and loses its role (R30, R34). -/
def BankRecord.fill (b : BankRecord) : BankRecord := { b with state := .filling, role := none }

/-- UPLOAD_BEGIN (R34, R40). -/
def execUploadBegin (s : State) : Host.Outcome State Fault Refusal :=
  .next <| s.take 0x06 fun p s =>
    let t := s.touchUpload
    if t.store.upload.isSome then t.reply .active []
    else if t.dateInReach (u16 p 0) then
      let i := t.store.target
      (t.setStore (t.store.setBank i (t.store.bank i).fill)).startWrite (.bankErase i (u16 p 0))
    else t.reply .badDate []

/-- An erase or a FILLING header write of UPLOAD_BEGIN fails: the target becomes FREE (R41). -/
def State.failBegin (s : State) (i : BankId) : State :=
  State.storeFail (s.setStore (s.store.setBank i (s.store.bank i).release)) []

/-- BANK_ERASE_END (R34, R41): the FILLING header write follows, or the upload fails and the bank holds what the erase left. -/
def execBankEraseEnd (verified : Bool) (s : State) : Host.Outcome State Fault Refusal :=
  .next <| match s.link.write with
    | some (.bankErase i date) =>
      if verified then (s.setFlash (s.flash.setBank i ⟨.erased, []⟩)).startWrite (.fillingHeader i date)
      else (s.fresh.2.setFlash (s.flash.setBank i (Config.bankLeft s.fresh.1))).failBegin i
    | _ => s

/-- The FILLING header is written, and the bank record holds what it carries; the trip count, the bank check and the commit
number, which R29 gives every header and no value here, are free values (notes/assumptions/15.md). -/
def State.writeFilling (s : State) (i : BankId) (date n : Nat) : State :=
  let count := (Config.fillingCount n).val
  let check := Config.fillingCheck n
  let commit := (Config.fillingCommit n).toNat
  { s with
    flash := s.flash.setBank i { s.flash.bank i with header := .good (.filling date count check commit) }
    store := s.store.setBank i
      { s.store.bank i with date := date, count := count, check := check, commit := commit } }

/-- The context opens and the idle timer is started (R34, R40). -/
def State.openUpload (s : State) (i : BankId) (date : Nat) : State :=
  { s with
    store := { s.store with upload := some ⟨i, date, 0, 0, none, 0xFFFF⟩ }
    timers := { s.timers with upload := s.timers.upload.start } }

/-- FILLING_HEADER_WRITE_END (R34, R41). -/
def execFillingHeaderWriteEnd (verified : Bool) (s : State) : Host.Outcome State Fault Refusal :=
  .next <| match s.link.write with
    | some (.fillingHeader i date) =>
      if verified then
        ((s.fresh.2.writeFilling i date s.fresh.1).openUpload i date).reply .ok (b8 i.number)
      else
        (s.fresh.2.setFlash (s.flash.setBank i { s.flash.bank i with header := Config.headerLeft s.fresh.1 })).failBegin i
    | _ => s

/-! ### TRIP_BLOCK (R35, R36) -/

/-- What every TRIP_BLOCK reply carries: the expected block number and the trips so far (R35). -/
def Store.blockData (st : Store) : List Byte := b8 st.expected ++ b16 st.tripsSoFar

/-- TRIP_BLOCK (R35, R40). -/
def execTripBlock (s : State) : Host.Outcome State Fault Refusal :=
  .next <| s.take 0x07 fun p s =>
    let t := s.touchUpload
    match t.store.upload with
    | none => t.reply .noUpload t.store.blockData
    | some u =>
      let ts := tripsAt p ((p.length - 1) / 8) 1
      match blockFault u (t.flash.bank u.target).trips (u8 p 0) ts with
      | some e => t.reply e t.store.blockData
      | none => t.startWrite (.tripBlock ts)

/-- TRIP_BLOCK_WRITE_END (R36, R41). -/
def execTripBlockWriteEnd (verified : Bool) (s : State) : Host.Outcome State Fault Refusal :=
  .next <| match s.link.write, s.store.upload with
    | some (.tripBlock ts), some u =>
      let b := s.flash.bank u.target
      if verified then
        let t := (s.setFlash (s.flash.setBank u.target { b with trips := b.trips ++ ts })).setStore
          { s.store with upload := some (u.after ts) }
        t.reply .ok t.store.blockData
      else
        let t := (s.fresh.2.setFlash
          (s.flash.setBank u.target { b with trips := Config.tripsLeft s.fresh.1 })).abortUpload
        t.storeFail t.store.blockData
    | _, _ => s

/-! ### UPLOAD_COMMIT (R38) -/

/-- UPLOAD_COMMIT (R38, R40): the count and the check are compared, then the VALID header is written. -/
def execUploadCommit (s : State) : Host.Outcome State Fault Refusal :=
  .next <| s.take 0x08 fun p s =>
    let t := s.touchUpload
    match t.store.upload with
    | none => t.reply .noUpload []
    | some u =>
      if u16 p 0 = u.trips ∧ u16 p 2 = u.check.toNat then
        t.startWrite (.commitHeader u.target u.date u.trips u.check (commitNumber t.flash u.target))
      else t.reply .mismatch (b16 u.trips ++ b16 u.check.toNat)

/-- The bank is VALID, the context closes and the idle timer stops (R38). -/
def State.commitBank (s : State) (i : BankId) (date count : Nat) (check : BitVec 16) (commit : Nat) : State :=
  { s with
    flash := s.flash.setBank i { s.flash.bank i with header := .good (.valid date count check commit) }
    store := { s.store.setBank i ⟨.valid, date, count, check, commit, none⟩ with upload := none }
    timers := { s.timers with upload := s.timers.upload.stop } }

/-- Selection after a commit, and the rebuild when it changed the holder of CURRENT; `answer` forms the reply, which waits for
both and not for the recomposition (R33, R38). -/
def State.afterCommit (s : State) (before : Option BankId) (answer : State → State) : State :=
  let t := s.selectBanks
  if t.store.holder .current = before then answer t
  else t.rebuild.eitherOrder answer fun u => u.recompose rowBands

/-- COMMIT_HEADER_WRITE_END (R38, R41). -/
def execCommitHeaderWriteEnd (verified : Bool) (s : State) : Host.Outcome State Fault Refusal :=
  .next <| match s.link.write with
    | some (.commitHeader i date count check commit) =>
      if verified then
        State.settle <| (s.commitBank i date count check commit).afterCommit (s.store.holder .current) fun t =>
          t.reply .ok (b16 count ++ b16 check.toNat)
      else
        (State.abortUpload (s.fresh.2.setFlash
          (s.flash.setBank i { s.flash.bank i with header := Config.headerLeft s.fresh.1 }))).storeFail []
    | _ => s

/-! ### UPLOAD_ABORT and the idle timeout (R39, R40) -/

/-- UPLOAD_ABORT (R39). -/
def execUploadAbort (s : State) : Host.Outcome State Fault Refusal :=
  .next <| s.take 0x09 fun _ s =>
    if s.store.upload.isSome then s.abortUpload.reply .ok [] else s.reply .noUpload []

/-- A write of an upload request is in progress. -/
def FlashWrite.ofUpload : FlashWrite → Bool
  | .bankErase _ _ => true
  | .fillingHeader _ _ => true
  | .tripBlock _ => true
  | .commitHeader _ _ _ _ _ => true
  | _ => false

/-- UPLOAD_IDLE_TIMEOUT (R40), when the count has reached zero (R67): the timer cannot expire during an upload request's own write
(notes/assumptions/31.md). -/
def execUploadIdleTimeout (s : State) : Host.Outcome State Fault Refusal :=
  .next <| if s.timers.upload.due && s.store.upload.isSome && !s.link.write.any FlashWrite.ofUpload then
      State.addNews (s.abortUpload.raise .timetable602) .uploadTimedOut
    else s

end Sys2Proof.Machine
end

