-- ==== Sys2Proof/Machine/Settings.lean ====
section
/-! DEFINITION. The Settings family (12 §12.4, 03 §3.5): CONFIG_SET, CONFIG_GET and WINDOW_SET with the ends of their writes,
and what each parameter's owner does with a new value. -/

namespace Sys2Proof.Machine

/-- The state with the configuration in force replaced. -/
def State.setCfg (s : State) (c : ConfigRecord) : State := { s with cfg := c }

/-! ### What the owners do with a new value (R188, last column) -/

/-- P04: entries on platforms no longer shown leave, and the board is handed over if any did (R25). -/
def State.dropHidden (s : State) : State :=
  let kept := s.board.entries.filter fun e => s.cfg.shows e.platform
  if kept.length = s.board.entries.length then s
  else (s.setBoard { s.board with entries := kept }).recompose rowBands

/-- P07: the second stage of the sweep at once, and a hand-over if any entry was removed (R25). -/
def State.regrace (s : State) : State :=
  let b := s.board.sweepPassed s.now s.cfg.grace
  if b.entries.length = s.board.entries.length then s else (s.setBoard b).recompose rowBands

/-- A timer's reload value follows its parameter (R69). -/
def State.setTimers (s : State) (t : Timers) : State := { s with timers := t }

/-- A parameter's owner takes the value in force; `old` is the value before (R188). P05, P06, P08, P18, P19, P21, P23, P24, P26,
P28 to P41 are read where they are used. -/
def State.handParam (s : State) (id old : Nat) : State :=
  match id with
  | 1 => if s.sizeDiffers then s.queueFullClean else s
  | 2 => if s.sizeDiffers then s.queueFullClean else s
  | 3 => s.recompose headerBand
  | 4 => s.dropHidden
  | 7 => s.regrace
  | 9 => s.recompose rowBands
  | 10 => s.recompose headerBand
  | 11 => s.recompose rowBands
  | 12 => s.recompose rowBands
  | 13 => s.recompose rowBands
  | 14 => s.recompose rowBands
  | 15 => s.recompose rowBands
  | 16 => s.setTimers { s.timers with rotation := s.timers.rotation.setReload (s.cfg.param 16 * 60) }
  | 17 => s.takeTiles (s.tiles.newLimit s.notices.jobClass old (s.cfg.param 17))
  | 20 => s.moveThreshold old
  | 22 => s.setTimers { s.timers with sample := s.timers.sample.setReload (s.cfg.param 22) }
  | 25 => s.setTimers { s.timers with rise := s.timers.rise.setReload (s.cfg.param 25) }
  | 27 => s.setTimers { s.timers with linger := s.timers.linger.setReload (s.cfg.param 27) }
  | 42 => s.setDuty
  | 43 => s.setDuty
  | _ => s

/-! ### CONFIG_SET and CONFIG_GET (R189, R190) -/

/-- A parameter's identifier and its value in force (R189). -/
def ConfigRecord.paramData (c : ConfigRecord) (id : Nat) : List Byte := b8 id ++ b32 (c.param id)

/-- CONFIG_SET (R189). -/
def execConfigSet (s : State) : Host.Outcome State Fault Refusal :=
  .next <| s.take 0x03 fun p s =>
    if paramKnown (u8 p 0) then
      if paramInRange (u8 p 0) (u32 p 1) then s.startWrite (.config (u8 p 0) (BitVec.ofNat 32 (u32 p 1)))
      else s.reply .range (s.cfg.paramData (u8 p 0))
    else s.reply .range []

/-- The record that a failed configuration write leaves: it passes its check or fails it, and is not as never written (R56, R194,
notes/assumptions/10.md). One that passes holds the last windows verified, which are those in force (R56, R58), and free parameters
(R189). -/
def leftConfig (windows : Vector Window 8) (n : Nat) : Item ConfigRecord :=
  match Config.configLeft n with
  | none => .bad
  | some params => .good ⟨params, windows⟩

/-- A configuration write fails: the record in flash holds what it left, and everything in force stays (R56, R189). -/
def State.failConfig (s : State) (data : List Byte) : State :=
  State.storeFail (s.fresh.2.setFlash { s.flash with config := leftConfig s.cfg.windows s.fresh.1 }) data

/-- A configuration record is written and in force (R56, R189). -/
def State.adoptConfig (s : State) (c : ConfigRecord) : State := (s.setFlash { s.flash with config := .good c }).setCfg c

/-- CONFIG_WRITE_END (R189): the reply does not wait for what the owner does with the value. -/
def execConfigWriteEnd (verified : Bool) (s : State) : Host.Outcome State Fault Refusal :=
  .next <| match s.link.write with
    | some (.config id value) =>
      if verified then
        State.settle <| (s.adoptConfig (s.cfg.setParam id value)).eitherOrder
          (fun t => t.reply .ok (t.cfg.paramData id)) fun t => t.handParam id (s.cfg.param id)
      else s.failConfig (s.cfg.paramData id)
    | _ => s

/-- CONFIG_GET (R190). -/
def execConfigGet (s : State) : Host.Outcome State Fault Refusal :=
  .next <| s.take 0x04 fun p s =>
    if paramKnown (u8 p 0) then s.reply .ok (s.cfg.paramData (u8 p 0))
    else if 50 ≤ u8 p 0 ∧ u8 p 0 ≤ 57 then
      s.reply .ok (b8 (u8 p 0) ++ (s.cfg.window (u8 p 0 - 50)).bytes (u8 p 0 - 50))
    else s.reply .range []

/-! ### WINDOW_SET (R55, R56) -/

/-- A window's settings as they stand, in the layout of R55. -/
def ConfigRecord.windowData (c : ConfigRecord) (i : Nat) : List Byte := (c.window i).bytes i

/-- WINDOW_SET (R55). -/
def execWindowSet (s : State) : Host.Outcome State Fault Refusal :=
  .next <| s.take 0x05 fun p s =>
    if windowInRange p then s.startWrite (.window (u8 p 0) (windowOf p))
    else if u8 p 0 ≤ 7 then s.reply .range (s.cfg.windowData (u8 p 0))
    else s.reply .range []

/-- WINDOW_WRITE_END (R55, R56). STORE_FAIL carries the header alone, since chapter 03 gives its reply no data (R187,
notes/assumptions/24.md). -/
def execWindowWriteEnd (verified : Bool) (s : State) : Host.Outcome State Fault Refusal :=
  .next <| match s.link.write with
    | some (.window i w) =>
      if verified then
        let t := s.adoptConfig (s.cfg.setWindow i w)
        t.reply .ok (t.cfg.windowData i)
      else s.failConfig []
    | _ => s

end Sys2Proof.Machine
end

