-- ==== Sys2Proof/Machine/Tables.lean ====
section
/-! DEFINITION. The Tables family (06 §6.2): TEXT_PUT and GLYPH_PUT with the ends of their writes. -/

namespace Sys2Proof.Machine

/-- The state with its presence maps replaced. -/
def State.setPresence (s : State) (p : Presence) : State := { s with presence := p }

/-- TEXT_PUT (R97). A refusal carries the header alone. -/
def execTextPut (s : State) : Host.Outcome State Fault Refusal :=
  .next <| s.take 0x0D fun p s =>
    if textInRange (textOf p) then s.startWrite (.text (u8 p 0) (textOf p)) else s.reply .range []

/-- The text is present with its new list (R97). -/
def State.putText (s : State) (id : Nat) (codes : List Nat) : State :=
  (s.setFlash { s.flash with texts := tableWrite s.flash.texts id (.good codes) }).setPresence
    { s.presence with texts := presentAdd s.presence.texts id }

/-- The text's item holds what the failed write left, and the entry is absent (R99). -/
def State.loseText (s : State) (id : Nat) : State :=
  (s.fresh.2.setFlash { s.flash with texts := tableWrite s.flash.texts id (Config.textLeft s.fresh.1) }).setPresence
    { s.presence with texts := presentDrop s.presence.texts id }

/-- What a TEXT_PUT reply carries: the id and the number of codes (R97). -/
def textData (id : Nat) (codes : List Nat) : List Byte := b8 id ++ b8 codes.length

/-- TEXT_WRITE_END (R97, R99): every band is recomposed, whatever the result. The STORE_FAIL reply and STORE/106 stand together,
before or after the recomposition (notes/assumptions/50.md). -/
def execTextWriteEnd (verified : Bool) (s : State) : Host.Outcome State Fault Refusal :=
  .next <| match s.link.write with
    | some (.text id codes) =>
      State.settle <|
        if verified then
          (s.putText id codes).eitherOrder (fun t => t.reply .ok (textData id codes)) fun t => t.recompose allBands
        else
          (s.loseText id).eitherOrder (fun t => t.storeFail (textData id codes)) fun t => t.recompose allBands
    | _ => s

/-- GLYPH_PUT (R98). A refusal carries the header alone. -/
def execGlyphPut (s : State) : Host.Outcome State Fault Refusal :=
  .next <| s.take 0x0E fun p s =>
    if glyphInRange p then s.startWrite (.glyph (u16 p 0) (glyphOf p)) else s.reply .range []

/-- The glyph is present with its new contents (R98). -/
def State.putGlyph (s : State) (code : Nat) (g : Glyph) : State :=
  (s.setFlash { s.flash with glyphs := tableWrite s.flash.glyphs code (.good g) }).setPresence
    { s.presence with glyphs := presentAdd s.presence.glyphs code }

/-- The glyph's item holds what the failed write left, and the entry is absent (R99). -/
def State.loseGlyph (s : State) (code : Nat) : State :=
  (s.fresh.2.setFlash { s.flash with glyphs := tableWrite s.flash.glyphs code (Config.glyphLeft s.fresh.1) }).setPresence
    { s.presence with glyphs := presentDrop s.presence.glyphs code }

/-- What a GLYPH_PUT reply carries: the code and the advance width (R98). -/
def glyphData (code : Nat) (g : Glyph) : List Byte := b16 code ++ b8 g.width

/-- GLYPH_WRITE_END (R98, R99): every band is recomposed, whatever the result. The STORE_FAIL reply and STORE/106 stand together,
before or after the recomposition (notes/assumptions/50.md). -/
def execGlyphWriteEnd (verified : Bool) (s : State) : Host.Outcome State Fault Refusal :=
  .next <| match s.link.write with
    | some (.glyph code g) =>
      State.settle <|
        if verified then
          (s.putGlyph code g).eitherOrder (fun t => t.reply .ok (glyphData code g)) fun t => t.recompose allBands
        else
          (s.loseGlyph code).eitherOrder (fun t => t.storeFail (glyphData code g)) fun t => t.recompose allBands
    | _ => s

end Sys2Proof.Machine
end

