-- ==== Sys2Proof/Machine/Dispatch.lean ====
section
/-! DEFINITION. The dispatch: one arm per command, one call of its meaning. -/

namespace Sys2Proof.Machine

/-- The effect of a command on everything but the queue of commands. -/
def exec (i : Instr) (s : State) : Host.Outcome State Fault Refusal :=
  match i with
  | .frameReceived bytes => Sys2Proof.Machine.execFrameReceived bytes s
  | .frameGapTimeout => Sys2Proof.Machine.execFrameGapTimeout s
  | .framingError => Sys2Proof.Machine.execFramingError s
  | .badKind => Sys2Proof.Machine.execBadKind s
  | .status => Sys2Proof.Machine.execStatus s
  | .timeSet => Sys2Proof.Machine.execTimeSet s
  | .configSet => Sys2Proof.Machine.execConfigSet s
  | .configWriteEnd verified => Sys2Proof.Machine.execConfigWriteEnd verified s
  | .configGet => Sys2Proof.Machine.execConfigGet s
  | .windowSet => Sys2Proof.Machine.execWindowSet s
  | .windowWriteEnd verified => Sys2Proof.Machine.execWindowWriteEnd verified s
  | .uploadBegin => Sys2Proof.Machine.execUploadBegin s
  | .bankEraseEnd verified => Sys2Proof.Machine.execBankEraseEnd verified s
  | .fillingHeaderWriteEnd verified => Sys2Proof.Machine.execFillingHeaderWriteEnd verified s
  | .tripBlock => Sys2Proof.Machine.execTripBlock s
  | .tripBlockWriteEnd verified => Sys2Proof.Machine.execTripBlockWriteEnd verified s
  | .uploadCommit => Sys2Proof.Machine.execUploadCommit s
  | .commitHeaderWriteEnd verified => Sys2Proof.Machine.execCommitHeaderWriteEnd verified s
  | .uploadAbort => Sys2Proof.Machine.execUploadAbort s
  | .uploadIdleTimeout => Sys2Proof.Machine.execUploadIdleTimeout s
  | .predict => Sys2Proof.Machine.execPredict s
  | .noticePost => Sys2Proof.Machine.execNoticePost s
  | .noticeWithdraw => Sys2Proof.Machine.execNoticeWithdraw s
  | .textPut => Sys2Proof.Machine.execTextPut s
  | .textWriteEnd verified => Sys2Proof.Machine.execTextWriteEnd verified s
  | .glyphPut => Sys2Proof.Machine.execGlyphPut s
  | .glyphWriteEnd verified => Sys2Proof.Machine.execGlyphWriteEnd verified s
  | .boardRead => Sys2Proof.Machine.execBoardRead s
  | .faultRead => Sys2Proof.Machine.execFaultRead s
  | .faultClear => Sys2Proof.Machine.execFaultClear s
  | .cleanNow => Sys2Proof.Machine.execCleanNow s
  | .reset => Sys2Proof.Machine.execReset s
  | .requestReset => Sys2Proof.Machine.execRequestReset s
  | .secondEvent => Sys2Proof.Machine.execSecondEvent s
  | .sweep => Sys2Proof.Machine.execSweep s
  | .supplySample millivolts celsius => Sys2Proof.Machine.execSupplySample millivolts celsius s
  | .rotation => Sys2Proof.Machine.execRotation s
  | .riseExpiry bgood => Sys2Proof.Machine.execRiseExpiry bgood s
  | .retryPauseExpiry => Sys2Proof.Machine.execRetryPauseExpiry s
  | .lingerExpiry => Sys2Proof.Machine.execLingerExpiry s
  | .frameEnd => Sys2Proof.Machine.execFrameEnd s
  | .identityExchange answer => Sys2Proof.Machine.execIdentityExchange answer s
  | .brownout => Sys2Proof.Machine.execBrownout s
  | .supplyLevelRise => Sys2Proof.Machine.execSupplyLevelRise s
  | .powerOnReset br1 br0 above millivolts celsius => Sys2Proof.Machine.execPowerOnReset br1 br0 above millivolts celsius s
  | .lineResetAssert => Sys2Proof.Machine.execLineResetAssert s
  | .lineResetRelease br1 br0 above millivolts celsius => Sys2Proof.Machine.execLineResetRelease br1 br0 above millivolts celsius s
  | .powerLoss => Sys2Proof.Machine.execPowerLoss s
  | .elapsedSecond => Sys2Proof.Machine.execElapsedSecond s
  | .replySent => Sys2Proof.Machine.execReplySent s

end Sys2Proof.Machine
end

