-- ==== Sys2Proof/Machine/Step.lean ====
section
/-! DEFINITION. One step of the block: the command at the front of its queue, or idling. -/

namespace Sys2Proof.Machine

/-- The state with its queue of commands replaced. -/
def State.setPending (s : State) (l : List Instr) : State := { s with pending := l }

/-- The next state, or the reason the machine stops: the command at the front of the queue is executed with the rest of the
queue; on an empty queue the block idles (notes/assumptions/2.md). -/
def step (s : State) : Host.Outcome State Fault Refusal :=
  match s.pending with
  | [] => .next s
  | c :: rest => exec c (s.setPending rest)

/-- The state with the command that a word spells put at the front of its queue. -/
def State.withFetchWord (s : State) (nbits w : Nat) : State :=
  match decodeTableWord nbits w with
  | none => s
  | some c => s.setPending (c :: s.pending)

end Sys2Proof.Machine
end

