-- ==== Sys2Proof/Safety.lean ====
section
/-! DEFINITION. The terms that statements about the part use: what a request at the head and its reply are, what work towards
the panel leaves alone, what departures and a notice decision do, and what counts as a sound state. -/

namespace Sys2Proof

/-- The command that takes a request, and the code of its kind, for the 19 kinds (R186). -/
def Instr.requestKind : Instr → Option Nat
  | .status => some 0x01
  | .timeSet => some 0x02
  | .configSet => some 0x03
  | .configGet => some 0x04
  | .windowSet => some 0x05
  | .uploadBegin => some 0x06
  | .tripBlock => some 0x07
  | .uploadCommit => some 0x08
  | .uploadAbort => some 0x09
  | .predict => some 0x0A
  | .noticePost => some 0x0B
  | .noticeWithdraw => some 0x0C
  | .textPut => some 0x0D
  | .glyphPut => some 0x0E
  | .boardRead => some 0x0F
  | .faultRead => some 0x10
  | .faultClear => some 0x11
  | .cleanNow => some 0x12
  | .reset => some 0x13
  | _ => none

end Sys2Proof

namespace Sys2Proof.Machine

/-! ### Requests and replies -/

/-- The request at the head of the queue can be taken, and `rest` stands behind it (R186). -/
def State.headIs (s : State) (r : Request) (rest : List Request) : Prop :=
  s.takesRequests = true ∧ s.link.requests = r :: rest

/-- The request at the head is being worked on by a flash write, and `rest` stands behind it (R186). -/
def State.writing (s : State) (w : FlashWrite) (r : Request) (rest : List Request) : Prop :=
  s.link.write = some w ∧ s.link.requests = r :: rest

/-- The link once the head request `r` is answered: it has left the queue, and one reply has joined those to be sent, with
kind plus 128, the tag, the result code, the free slots, the news flag and the data (R187). -/
def Link.answered (l : Link) (r : Request) (rest : List Request) (code : Nat) (news : Bool) (data : List Byte) : Link :=
  { l with
    requests := rest
    write := none
    replies := l.replies ++
      [⟨r.kind + 128, r.tag, [BitVec.ofNat 8 code, BitVec.ofNat 8 (8 - rest.length), if news then 1 else 0] ++ data⟩] }

/-! ### Work towards the panel -/

/-- From `s` to `t` nothing changed but what recompositions, formation, full cleans, grants and the faults they raise reach:
the Composer, the Tile Map, the Panel Drive, the estimate E, the rise and linger timers, the fault records, and the model's
schedule. -/
structure PanelWork (s t : State) : Prop where
  phase : t.phase = s.phase
  lineLow : t.lineLow = s.lineLow
  link : t.link = s.link
  flash : t.flash = s.flash
  presence : t.presence = s.presence
  cfg : t.cfg = s.cfg
  store : t.store = s.store
  resetRoles : t.resetRoles = s.resetRoles
  clock : t.clock = s.clock
  board : t.board = s.board
  notices : t.notices = s.notices
  energy : t.energy = { s.energy with estimate := t.energy.estimate }
  timers : t.timers = { s.timers with rise := t.timers.rise, linger := t.timers.linger }
  supply : t.drive.supplyAbove = s.drive.supplyAbove
  held : t.drive.held = s.drive.held
  cause : t.faults.cause = s.faults.cause
  elapsed : t.tiles.elapsed = s.tiles.elapsed
  freeCount : t.freeCount = s.freeCount
  pending : t.pending = s.pending

/-! ### What the board and the Notice List make of a change -/

/-- A gone list once entries have left the board as departures (R7): each timetable entry among them whose scheduled second is not
below `low` has joined with that second plus the grace as its expiry, and of more than 32 records the oldest have left. The order in
which entries that leave together join is open (notes/assumptions/44.md). -/
def GoneJoined (old : List Gone) (leaving : List Entry) (low grace : Int) (new : List Gone) : Prop :=
  ∃ joined : List Gone,
    joined.Perm (leaving.filterMap fun e =>
      (e.sched.filter fun x => decide (e.origin ≠ .extra ∧ low ≤ x)).map fun x => ⟨e.key, x + grace⟩) ∧
    new = (old ++ joined).drop ((old ++ joined).length - 32)

/-- The top set in posting order: the notices of the lowest priority number present (R111). -/
def topOf (l : List Notice) : List Notice := l.filter fun n => l.all fun x => decide (n.priority ≤ x.priority)

/-- What makes the top set: which notices stand in it, and their priority (R112). -/
def topIds (l : List Notice) : List (Nat × Nat) := (topOf l).map fun n => (n.id, n.priority)

/-- The decision after a change of the list (R111, R112): the rotation position is kept while it names a notice of the top set, else
it names the first of the top set, or nothing when the list is empty; the rotation timer restarts from its reload value exactly when
the top set has changed. -/
structure NoticesDecided (old new : Notices) (before after : Timer) : Prop where
  kept : (∃ n ∈ topOf new.list, old.position = some n.id) → new.position = old.position
  first : (¬∃ n ∈ topOf new.list, old.position = some n.id) → new.position = (topOf new.list).head?.map (·.id)
  runsOn : topIds new.list = topIds old.list → after = before
  restarts : topIds new.list ≠ topIds old.list → after = { before with remaining := before.reload, running := true }

/-! ### The wanted image -/

/-- The codes of a number's decimal digits (R82). -/
def digitsOf (n : Nat) : List Nat := (Nat.toDigits 10 n).map Char.toNat

/-- The codes of a wall minute as hh:mm, code 58 being the colon (R83). -/
def wallCodes (m : Nat) : List Nat := [48 + m / 600, 48 + m / 60 % 10, 58, 48 + m % 60 / 10, 48 + m % 10]

/-- The fields of a tile row, from its first tile on, by the row records as they stand (R73, R82 to R86): the stop name and the clock,
the notice, or what a departure row shows. -/
def State.fieldsAt (s : State) (y : Nat) : List Field :=
  let wt := s.tiles.wt
  let three (route dest countdown : Content) : List Field := [⟨route, 2, false⟩, ⟨dest, wt - 4, false⟩, ⟨countdown, 2, true⟩]
  if y = 0 then
    [⟨.text (s.cfg.param 3), wt - 2, false⟩,
      ⟨match s.clock.time with
        | none => .blank
        | some u =>
          if s.cfg.param 10 = 0 ∨ s.energy.conserve = true then .blank
          else .codes (wallCodes ((u.second + 60 * u.dayStart) % 86400 / 60)), 2, true⟩]
  else if y + 1 = s.tiles.ht then
    [⟨match s.notices.list.find? fun n => some n.id == s.notices.position with
      | none => .blank
      | some n => .text n.text, wt, false⟩]
  else
    match s.composer.rows[y - 1]?, s.board.entries[y - 1]? with
    | some (.message .noDepartures), _ => [⟨.text (s.cfg.param 14), wt, false⟩]
    | some (.message .timeUnknown), _ => [⟨.text (s.cfg.param 15), wt, false⟩]
    | some (.countdown _ v _), some e =>
      three (.codes (digitsOf e.key.route)) (.text e.dest) (.codesThenText (digitsOf v) (s.cfg.param 13))
    | some (.clockTime _ m), some e => three (.codes (digitsOf e.key.route)) (.text e.dest) (.codes (wallCodes m))
    | some (.due _), some e => three (.codes (digitsOf e.key.route)) (.text e.dest) (.text (s.cfg.param 11))
    | some (.cancelled _), some e => three (.codes (digitsOf e.key.route)) (.text e.dest) (.text (s.cfg.param 12))
    | _, _ => three .blank .blank .blank

/-- `px` is the image of tile `i`: in the tile row the fields lie side by side, and each pixel is that of the rendered field it
belongs to, the leftmost being the most significant bit of a row (R90). -/
def State.imageAt (s : State) (i : Nat) (px : TilePixels) : Prop :=
  ∃ before f after, s.fieldsAt (i / s.tiles.wt) = before ++ f :: after ∧
    let c := (before.map (·.tiles)).sum
    c ≤ i % s.tiles.wt ∧ i % s.tiles.wt < c + f.tiles ∧
      ∀ r x, r < 40 → x < 40 →
        px.getMsbD (40 * r + x) =
          ((s.renderField f).1.getD r 0).testBit (40 * f.tiles - 1 - (40 * (i % s.tiles.wt - c) + x))

/-- The wanted signature of tile `i` is that of its image (R90, R91). -/
def State.wantsItsImage (s : State) (i : Nat) : Prop :=
  ∃ t px, s.tiles.tiles[i]? = some t ∧ s.imageAt i px ∧ t.wanted = some (signature px)

/-- A recomposition of the bands covers tile `i` of a panel: the header band whole or its clock field, a departure row, the notice
band (R73, R87). -/
def Bands.cover (b : Bands) (wt ht i : Nat) : Prop :=
  (i / wt = 0 ∧ (b.header = .whole ∨ (b.header = .clock ∧ wt - 2 ≤ i % wt))) ∨
    (b.rows = true ∧ 1 ≤ i / wt ∧ i / wt + 1 < ht) ∨ (b.notice = true ∧ i / wt + 1 = ht)

/-! ### Sound states -/

/-- The request queue holds at most 8 requests (R185). -/
def Link.sound (l : Link) : Prop := l.requests.length ≤ 8

/-- The board holds at most 32 entries and the gone list at most 32 records, and no key stands twice among them (R2, R7, R8). -/
def Board.sound (b : Board) : Prop :=
  b.entries.length ≤ 32 ∧ b.gone.length ≤ 32 ∧ (b.entries.map (·.key) ++ b.gone.map (·.key)).Nodup

/-- The board stands in the order of R4. -/
def Board.ordered (b : Board) : Prop := b.entries.Pairwise fun x y => x.before y = true

/-- At most 16 jobs with distinct numbers, of which the one the Panel Drive holds, and no other, is GRANTED or DRIVING
(R118, R149, R155). -/
def State.queueSound (s : State) : Prop :=
  s.tiles.jobs.length ≤ 16 ∧ (s.tiles.jobs.map (·.num)).Nodup ∧
    (∀ j ∈ s.tiles.jobs, j.inHand = true ↔ s.drive.granted = some j.num) ∧
    (∀ n, s.drive.granted = some n → ∃ j ∈ s.tiles.jobs, j.num = n)

/-- One tile record and one place for pixels per tile of the applied geometry, one row record per departure row, and every wanted
signature that of the pixels kept for its tile (R73, R90, R91, R116). -/
def State.imageSound (s : State) : Prop :=
  s.tiles.tiles.length = s.tiles.wt * s.tiles.ht ∧ s.composer.pixels.length = s.tiles.wt * s.tiles.ht ∧
    s.composer.rows.length = s.tiles.ht - 2 ∧
    ∀ (i : Nat) (t : Tile) (w : Signature), s.tiles.tiles[i]? = some t → t.wanted = some w →
      ∃ px, s.composer.pixels[i]? = some (some px) ∧ signature px = w

/-- BEN is low in OFF and high in READY and DRIVING; in RISING and READY the supply is ABOVE, and in DRIVING until a brownout
(R156, R157, R161). -/
def Drive.sound (d : Drive) : Prop :=
  (d.booster = .off → d.ben = false) ∧
    (d.booster = .ready ∨ d.booster = .driving → d.ben = true) ∧
    (d.booster = .rising ∨ d.booster = .ready → d.supplyAbove = true) ∧
    (d.booster = .driving → d.brownedOut = false → d.supplyAbove = true)

/-- While the clock is UNSET no bank holds a role, the reuse flag is clear, and the board and the gone list are empty
(R26, R31, R59). -/
def State.unsetSound (s : State) : Prop :=
  s.clock.time = none →
    s.store.bankA.role = none ∧ s.store.bankB.role = none ∧ s.store.reuse = false ∧
      s.board.entries = [] ∧ s.board.gone = []

/-- What a configuration write in progress would put in force lies in range (R55, R189). -/
def FlashWrite.inRange : FlashWrite → Prop
  | .config id v => paramInRange id v.toNat = true
  | .window _ w => w.inRange = true
  | _ => True

/-- Every parameter and window in force lies in its range, and so does what a write would put in force (R188, R189). -/
def State.configSound (s : State) : Prop :=
  s.cfg.inRange = true ∧ ∀ w, s.link.write = some w → w.inRange

/-- Every timer has the mode of R68 and the period in force: 10 s, P22, P16 minutes, P27, 600 s, P25 and 100 ms (R68, R69). -/
def State.timersSound (s : State) : Prop :=
  (s.timers.sweep.mode = .periodic ∧ s.timers.sweep.reload = 10) ∧
    (s.timers.sample.mode = .periodic ∧ s.timers.sample.reload = s.cfg.param 22) ∧
    (s.timers.rotation.mode = .periodic ∧ s.timers.rotation.reload = s.cfg.param 16 * 60) ∧
    (s.timers.linger.mode = .oneShot ∧ s.timers.linger.reload = s.cfg.param 27) ∧
    (s.timers.upload.mode = .oneShot ∧ s.timers.upload.reload = 600) ∧
    (s.timers.rise.mode = .oneShot ∧ s.timers.rise.reload = s.cfg.param 25) ∧
    (s.timers.retry.mode = .oneShot ∧ s.timers.retry.reload = 100)

/-- The tables of the Flash Store stand in canonical form: places rising, no erased item listed (R96). -/
def Flash.sound (f : Flash) : Prop := tableWf f.texts = true ∧ tableWf f.glyphs = true

/-- Every glyph that is present, and one whose write is in progress, is 1 to 40 px wide (R94, R98, R100). -/
def State.glyphsSound (s : State) : Prop :=
  (∀ code g, s.glyphEntry code = some g → g.inRange = true) ∧
    ∀ code g, s.link.write = some (.glyph code g) → g.inRange = true

/-- Ghost counts are 0 to 63 and the fault count 0 to 65,535 (R125, R174). -/
def State.countsSound (s : State) : Prop := (∀ t ∈ s.tiles.tiles, t.ghost ≤ 63) ∧ s.faults.count ≤ 65535

/-- The estimate is 0 to 1,350,500 mJ (R138, R139). -/
def Energy.sound (e : Energy) : Prop := e.estimate ≤ 1350500

end Sys2Proof.Machine
end

