-- ==== Sys2Proof/Certificates/Slice0/Obligations.lean ====
section
/-! DEFINITION. The statements for the provers. Each docstring names the rules it formalises. The premise
`attemptWaiting = false` is the model's own (notes/assumptions/7.md): every step keeps it, as
`Obligations.StepLeavesNoAttemptWaiting` states. -/

section Statements

open Sys2Proof Sys2Proof.Machine

/-! ### The step, reset, and what every command does -/

/-- A step executes the command at the front of the queue on the state with the rest of the queue; on an empty queue the block
idles, which is the model's choice (notes/assumptions/2.md). -/
def Obligations.StepExecutesFrontCommand : Prop :=
  (∀ (c : Instr) (rest : List Instr) (s : State), step (s.setPending (c :: rest)) = exec c (s.setPending rest)) ∧
  (∀ s : State, s.pending = [] → step s = .next s)

/-- Every command answers a next state and leaves the queue of commands as it was. -/
def Obligations.EveryCommandKeepsTheCommandQueue : Prop :=
  ∀ (c : Instr) (s : State), ∃ t, exec c s = .next t ∧ t.pending = s.pending

/-- The state after a power-on reset, before start-up (R26, R34, R43, R59, R71, R115, R134, R153, R155, R182, R193), and every
invariant stated below in it. -/
def Obligations.ResetStateIsClearAndSound : Prop :=
  let s := State.reset
  (s.link.receiver = .hunt ∧ s.link.requests = [] ∧ s.link.replies = [] ∧ s.link.write = none) ∧
  (s.clock.time = none ∧ s.board.entries = [] ∧ s.board.gone = []) ∧
  (s.store.bankA.role = none ∧ s.store.bankB.role = none ∧ s.store.reuse = false ∧ s.store.upload = none) ∧
  (s.notices.list = [] ∧ s.notices.position = none) ∧
  (s.tiles.jobs = [] ∧ s.tiles.elapsed = 0 ∧ ∀ t ∈ s.tiles.tiles, t = ⟨none, none, 0, false, none⟩) ∧
  (s.energy = ⟨none, none, 0, false, false, false, 0⟩) ∧
  (s.drive.booster = .off ∧ s.drive.ben = false ∧ s.drive.granted = none ∧ s.drive.framesDriven = 0 ∧
    s.drive.retriesUsed = 0 ∧ s.drive.cutFrame = false) ∧
  (s.faults = ⟨0, none, none, 0, 0, .power⟩ ∧ s.attn = false) ∧
  (s.timers.sweep.running = false ∧ s.timers.sample.running = false ∧ s.timers.rotation.running = false ∧
    s.timers.linger.running = false ∧ s.timers.upload.running = false ∧ s.timers.rise.running = false ∧
    s.timers.retry.running = false) ∧
  (s.link.sound ∧ s.board.sound ∧ s.board.ordered ∧ s.queueSound ∧ s.imageSound ∧ s.drive.sound ∧ s.unsetSound ∧ s.configSound ∧
    s.timersSound ∧ s.flash.sound ∧ s.glyphsSound ∧ s.countsSound ∧ s.energy.sound ∧ s.attemptWaiting = false)

/-! ### Invariants that every step keeps -/

/-- R185: the request queue never holds more than 8 requests. -/
def Obligations.StepKeepsRequestQueueBounded : Prop :=
  ∀ s t : State, s.link.sound → step s = .next t → t.link.sound

/-- R2, R7, R8: at most 32 entries and 32 gone records, and no key twice on the board, twice on the gone list, or on both. -/
def Obligations.StepKeepsBoardKeysDistinct : Prop :=
  ∀ s t : State, s.board.sound → step s = .next t → t.board.sound

/-- R4: the board is always in ascending order of effective second, ties broken by route and then trip. -/
def Obligations.StepKeepsBoardOrdered : Prop :=
  ∀ s t : State, s.board.sound → s.board.ordered → step s = .next t → t.board.ordered

/-- R118, R149, R155: at most 16 jobs with distinct numbers, and exactly the Panel Drive's granted job in hand. -/
def Obligations.StepKeepsRefreshQueueSound : Prop :=
  ∀ s t : State, s.queueSound → step s = .next t → t.queueSound

/-- R73, R90, R91, R116, R129: the tile records, the pixels and the row records fit the applied geometry, and every wanted signature
is that of the pixels the Composer keeps for the tile. -/
def Obligations.StepKeepsWantedSignaturesOfThePixels : Prop :=
  ∀ s t : State, s.imageSound → step s = .next t → t.imageSound

/-- R156, R157, R161: how BEN and the supply level stand in each booster state. -/
def Obligations.StepKeepsBoosterLinesSound : Prop :=
  ∀ s t : State, s.drive.sound → step s = .next t → t.drive.sound

/-- R26, R31, R59: while the clock is UNSET no bank holds a role and the board holds nothing. -/
def Obligations.StepKeepsUnsetClockWithoutRoles : Prop :=
  ∀ s t : State, s.unsetSound → step s = .next t → t.unsetSound

/-- R188, R189, R194: every parameter and window in force lies in its range; with them, the estimate stays 0 to 1,350,500 mJ (R138,
R139). -/
def Obligations.StepKeepsConfigurationAndEstimateInRange : Prop :=
  ∀ s t : State, s.configSound → step s = .next t → t.configSound ∧ (s.energy.sound → t.energy.sound)

/-- R68, R69: every timer keeps its mode, and its period is the one that its parameter in force gives. -/
def Obligations.StepKeepsTimerPeriods : Prop :=
  ∀ s t : State, s.timersSound → step s = .next t → t.timersSound

/-- R96: the tables of the Flash Store stay in canonical form; R94, R98, R100: with them, every present glyph stays 1 to 40 px wide;
R125, R174: ghost counts and the fault count stay in range. -/
def Obligations.StepKeepsTablesAndCountsSound : Prop :=
  ∀ s t : State, step s = .next t → (s.flash.sound → t.flash.sound ∧ (s.glyphsSound → t.glyphsSound)) ∧
    (s.countsSound → t.countsSound)

/-- The model's own (notes/assumptions/7.md): a step takes every grant attempt that it brings. -/
def Obligations.StepLeavesNoAttemptWaiting : Prop :=
  ∀ s t : State, s.attemptWaiting = false → step s = .next t → t.attemptWaiting = false

/-! ### Control Link -/

/-- R183, R184, R185: a good frame that arrives in HUNT is read back as the request it carries; it joins the queue, or is answered
QUEUE_FULL at once when 8 requests are present, with 0 free slots and no data. -/
def Obligations.GoodFrameIsQueuedOrAnswered : Prop :=
  ∀ (s : State) (r : Reply), s.powered = true → s.link.receiver = .hunt → r.payload.length ≤ 240 →
    (s.link.requests.length < 8 →
      exec (.frameReceived r.frame) s =
        .next { s with link := { s.link with requests := s.link.requests ++ [⟨r.kind, r.tag, r.payload⟩] } }) ∧
    (8 ≤ s.link.requests.length →
      exec (.frameReceived r.frame) s =
        .next { s with link := { s.link with
          replies := s.link.replies ++ [⟨r.kind + 128, r.tag, [1, 0, if s.faults.newsFlag then 1 else 0]⟩] } })

/-- R184: a whole frame whose check differs is discarded without a reply and without a trace; a gap and a framing error discard a
partial frame and nothing else, and a 0xA5 then starts a new frame. -/
def Obligations.BadFramesLeaveNoTrace : Prop :=
  (∀ (s : State) (bytes : List Byte), s.powered = true → s.link.receiver = .hunt → u8 bytes 0 ≤ 240 →
    bytes.length = u8 bytes 0 + 5 → (crc16 (bytes.take (bytes.length - 2))).toNat ≠ u16 bytes (bytes.length - 2) →
    exec (.frameReceived (0xA5 :: bytes)) s = .next s) ∧
  (∀ s : State,
    exec .frameGapTimeout s = .next { s with link := { s.link with receiver := .hunt } } ∧
    exec .framingError s = .next { s with link := { s.link with receiver := .hunt } } ∧
    (s.powered = true → s.link.receiver = .hunt →
      exec (.frameReceived [0xA5]) s = .next { s with link := { s.link with receiver := .frame [] } }))

/-- R186, R187: a request of a kind that is none of the 19 is refused BAD_KIND, and one of a length that its kind does not allow
BAD_LENGTH, each with the header alone and nothing else changed. That an upload request refused BAD_LENGTH while an upload is open
restarts no idle timer, which R40 leaves open, is the model's choice (notes/assumptions/43.md). -/
def Obligations.UnfitRequestsAreRefused : Prop :=
  (∀ (s : State) (r : Request) (rest : List Request), s.headIs r rest → (r.kind.toNat = 0 ∨ 0x13 < r.kind.toNat) →
    exec .badKind s = .next { s with link := s.link.answered r rest 2 s.faults.newsFlag [] }) ∧
  (∀ (s : State) (c : Instr) (r : Request) (rest : List Request), s.headIs r rest → s.attemptWaiting = false →
    c.requestKind = some r.kind.toNat → lengthAllowed r.kind.toNat r.payload.length = false →
    exec c s = .next { s with link := s.link.answered r rest 3 s.faults.newsFlag [] })

/-- R43, R187, R192: replies are sent in the order they were formed, a waiting RESET coming one reply nearer; RESET forms its reply
at once, with the header alone, and from then on no request is taken and the requests behind it stay. The banks that hold the roles
at that moment are kept for the reset's refill. -/
def Obligations.RepliesLeaveInOrderAndResetComesFirst : Prop :=
  (∀ (s : State) (r : Reply) (rest : List Reply), s.link.replies = r :: rest →
    exec .replySent s =
      .next { s with link := { s.link with replies := rest, resetAfter := s.link.resetAfter.map (· - 1) } }) ∧
  (∀ (s : State) (r : Request) (rest : List Request), s.headIs r rest → r.kind = 0x13 → r.payload = [] →
    let holder (x : Role) : Option BankId :=
      if s.store.bankA.role = some x then some .a else if s.store.bankB.role = some x then some .b else none
    ∃ t, exec .reset s = .next t ∧ t.takesRequests = false ∧
      t = { s with
        link := { s.link.answered r rest 0 s.faults.newsFlag [] with resetAfter := some (s.link.replies.length + 1) }
        resetRoles := ⟨holder .current, holder .next⟩ })

/-- R118, R127, R128, R191: CLEAN_NOW queues a full clean and answers 1, or finds one in the queue and answers 0; while a HOLD class
is latched nothing follows it. The clean absorbs every QUEUED job, takes the lowest free number, and is FULL, over the whole panel,
from this elapsed second; every tile outside the job in hand refers to it, and no tile record changes otherwise. -/
def Obligations.CleanNowQueuesOneClean : Prop :=
  (∀ (s : State) (r : Request) (rest : List Request), s.headIs r rest → r.kind = 0x12 → r.payload = [] →
    s.attemptWaiting = false →
    (s.tiles.hasClean = true →
      exec .cleanNow s = .next { s with link := s.link.answered r rest 0 s.faults.newsFlag [0] }) ∧
    (s.tiles.hasClean = false →
      (∃ t news, exec .cleanNow s = .next t ∧ PanelWork { s with link := s.link.answered r rest 0 news [1] } t ∧
        t.tiles.hasClean = true) ∧
      (s.holdLatched = true →
        ∃ l, exec .cleanNow s = .next { s with
          schedule := l
          tiles := s.tiles.queueClean.1
          link := s.link.answered r rest 0 s.faults.newsFlag [1] }))) ∧
  (∀ tm : TileMap,
    (tm.hasClean = true → tm.queueClean.1 = tm) ∧
    (tm.hasClean = false → tm.jobs.length ≤ 16 → (tm.jobs.map (·.num)).Nodup →
      let kept := tm.jobs.filter fun j => j.state != .queued
      let hand := (tm.jobs.find? Job.inHand).map (·.num)
      ∃ n, tm.queueClean.1 = { tm with
          jobs := kept ++ [⟨n, .clean, .fullMode, 0, 0, tm.wt - 1, tm.elapsed, .queued, []⟩]
          tiles := tm.queueClean.1.tiles } ∧
        (∀ j ∈ kept, j.num ≠ n) ∧ (∀ m, m < n → ∃ j ∈ kept, j.num = m) ∧
        tm.queueClean.1.tiles =
          tm.tiles.map fun x => { x with job := if x.job ≠ none ∧ x.job = hand then x.job else some n }))

/-! ### Faults and status -/

/-- R178, R179: STATUS reports 36 bytes, each field at its offset in the rule's coding, and empties the news set at the same moment;
its own news flag is 0. -/
def Obligations.StatusReportsAndEmptiesNews : Prop :=
  ∀ (s : State) (r : Request) (rest : List Request), s.headIs r rest → r.kind = 0x01 → r.payload = [] →
    exec .status s = .next { s with
      faults := { s.faults with news := 0 }
      link := s.link.answered r rest 0 false s.statusData } ∧
    s.statusData.length = 36 ∧
    (let holds (b : BankRecord) (x : Role) : Bool := decide (b.role = some x)
     let dateOf (x : Role) : Nat :=
       if holds s.store.bankA x then s.store.bankA.date else if holds s.store.bankB x then s.store.bankB.date else 0
     let present (x : Role) : Bool := holds s.store.bankA x || holds s.store.bankB x
     let bit (b : Bool) : Byte := if b then 1 else 0
     s.statusData =
       b8 (match s.faults.cause with | .power => 1 | .line => 2 | .request => 3) ++
       (match s.clock.time with
         | none => List.replicate 6 0
         | some u =>
           let w := (u.second + 60 * u.dayStart) % 86400
           [1] ++ b8 (w / 3600) ++ b8 (w / 60 % 60) ++ b8 (w % 60) ++ b16 u.date) ++
       b16 (dateOf .current) ++ b16 (dateOf .next) ++ [bit (present .current), bit (present .next), bit s.store.reuse] ++
       (match s.store.upload with
         | none => [0, 0]
         | some u => [1] ++ b8 u.expected) ++
       b8 s.board.entries.length ++ b8 s.board.gone.length ++ b8 s.notices.list.length ++
       b8 (s.tiles.jobs.filter fun j => j.state == .queued).length ++
       b8 (match s.tiles.jobs.find? Job.inHand with
         | none => 0
         | some j =>
           match j.cls with | .noticeUrgent => 1 | .row => 2 | .notice => 3 | .clock => 4 | .clean => 5) ++
       b8 (match s.drive.booster with | .off => 0 | .rising => 1 | .ready => 2 | .driving => 3) ++
       b8 (s.tiles.tiles.filter fun x => x.shown.isNone).length ++ b8 (s.tiles.tiles.filter fun x => x.clearDue).length ++
       (match s.energy.vs with | none => [0xFF, 0xFF] | some v => b16 v) ++ b24 s.energy.estimate ++
       [match s.energy.temp with | none => 0x80 | some c => BitVec.ofInt 8 c] ++
       [bit s.energy.conserve, bit s.energy.lowFlag] ++ b16 s.faults.latched.toNat ++ b16 s.faults.news.toNat)

/-- R180: BOARD_READ answers the board count and the occupied positions asked for, 17 bytes each in the rule's layout, or RANGE
alone, and a payload of another length BAD_LENGTH; it changes nothing else. -/
def Obligations.BoardReadReportsPositions : Prop :=
  (∀ (s : State) (r : Request) (rest : List Request), s.headIs r rest → r.kind = 0x0F →
    let answered (code : Nat) (data : List Byte) : State :=
      { s with link := s.link.answered r rest code s.faults.newsFlag data }
    (r.payload.length ≠ 2 → exec .boardRead s = .next (answered 3 [])) ∧
    (∀ start count : Byte, r.payload = [start, count] →
      let l := (s.board.entries.drop (start.toNat - 1)).take count.toNat
      (1 ≤ start.toNat ∧ start.toNat ≤ 32 ∧ 1 ≤ count.toNat ∧ count.toNat ≤ 8 →
        exec .boardRead s = .next (answered 0 (b8 s.board.entries.length ++ b8 l.length ++ l.flatMap Entry.bytes))) ∧
      (¬(1 ≤ start.toNat ∧ start.toNat ≤ 32 ∧ 1 ≤ count.toNat ∧ count.toNat ≤ 8) →
        exec .boardRead s = .next (answered 4 [])))) ∧
  (∀ e : Entry,
    let time (t : Option Int) : List Byte :=
      match t with
      | none => [0x80, 0, 0]
      | some x => b24 (x % 2 ^ 24).toNat
    e.bytes =
      b16 e.key.route ++ b16 e.key.trip ++
        b8 (match e.origin with | .current => 1 | .next => 2 | .extra => 3) ++
        b8 (match e.state with | .planned => 1 | .live => 2 | .lapsed => 3 | .cancelled => 4) ++
        b8 e.dest ++ b8 e.platform ++
        time e.sched ++ time (e.pred.map (·.second)) ++ time (e.pred.map (·.stamp)) ∧
    e.bytes.length = 17)

/-- R176: FAULT_READ answers the first record, the last record and the count in 22 bytes, each record in the rule's layout and an
empty one as ten bytes of 0, and a payload of another length BAD_LENGTH; it changes nothing else. -/
def Obligations.FaultReadReportsRecords : Prop :=
  (∀ (s : State) (r : Request) (rest : List Request), s.headIs r rest → r.kind = 0x10 →
    let answered (code : Nat) (data : List Byte) : State :=
      { s with link := s.link.answered r rest code s.faults.newsFlag data }
    let data := recordBytes s.faults.first ++ recordBytes s.faults.last ++ b16 s.faults.count
    (r.payload = [] → exec .faultRead s = .next (answered 0 data) ∧ data.length = 22) ∧
    (r.payload ≠ [] → exec .faultRead s = .next (answered 3 []))) ∧
  recordBytes none = List.replicate 10 0 ∧
  (∀ f : FaultRecord, recordBytes (some f) =
    [1] ++ b8 f.code.cls.code ++ b16 f.code.detail ++
      match f.stamp with
      | none => [0, 0, 0, 0, 0, 0]
      | some t => [1] ++ b16 t.date ++ b24 t.wall)

/-- R144, R175: FAULT_CLEAR answers the latched classes and the count as they stood, empties the classes, the first record and the
count, clears the low flag, and keeps the last record and the news set; only a cleared class at HOLD starts more. -/
def Obligations.FaultClearEmptiesTheUnit : Prop :=
  ∀ (s : State) (r : Request) (rest : List Request), s.headIs r rest → r.kind = 0x11 → r.payload = [] →
    s.attemptWaiting = false →
    let data := b16 s.faults.latched.toNat ++ b16 s.faults.count
    let cleared : State := { s with
      faults := { s.faults with latched := 0, first := none, count := 0 }
      energy := { s.energy with lowFlag := false }
      link := s.link.answered r rest 0 s.faults.newsFlag data }
    ∃ t, exec .faultClear s = .next t ∧
      (s.holdLatched = false → ∃ l, t = { cleared with schedule := l }) ∧
      (s.sizeDiffers = false → PanelWork cleared t ∧ t.faults = cleared.faults)

/-- R174: raising a fault latches its class, adds a news item only when the class is newly latched, overwrites the last record,
fills an empty first record, and counts up to 65,535. -/
def Obligations.RaiseFollowsFourSteps : Prop :=
  ∀ (s : State) (c : FaultCode), ∃ f, s.raise c = { s with faults := f } ∧
    f.latched = s.faults.latched ||| c.cls.bit ∧
    (s.faults.latched &&& c.cls.bit ≠ 0 → f.news = s.faults.news) ∧
    (s.faults.latched &&& c.cls.bit = 0 → f.news = s.faults.news ||| c.cls.bit) ∧
    f.last = some ⟨c, s.clock.time.map fun u => ⟨u.date, (u.second + 60 * u.dayStart) % 86400⟩⟩ ∧
    (s.faults.first = none → f.first = f.last) ∧ (s.faults.first ≠ none → f.first = s.faults.first) ∧
    (s.faults.count < 65535 → f.count = s.faults.count + 1) ∧ (s.faults.count = 65535 → f.count = 65535) ∧
    f.cause = s.faults.cause

/-! ### Panel Drive -/

/-- R130, R158, R164: BGOOD high starts the drive: the snapshot holds the wanted signatures of the span, and the image sent the
pixels that the Composer holds for its tiles at that moment, all light where it holds none, with the job's mode, row and span; low
with retries left begins a retry pause; low without, with BOOSTER at HOLD, returns the job and raises BOOSTER/301. -/
def Obligations.RiseExpiryActsOnBoosterGood : Prop :=
  (∀ (s : State) (n : Nat) (j : Job), s.timers.rise.running = true → s.drive.booster = .rising →
    s.drive.granted = some n → s.tiles.job n = some j →
    (∃ t, exec (.riseExpiry true) s = .next t ∧ PanelWork s t ∧ t.drive.booster = .driving ∧ t.drive.ben = true ∧
      t.drive.granted = some n ∧ t.drive.framesDriven = 0 ∧
      t.tiles.job n = some { j with state := .driving, snapshot := snapshotOf j s.tiles.wt 0 s.tiles.tiles } ∧
      t.tiles.tiles = s.tiles.tiles ∧
      (let span := (List.range s.composer.pixels.length).filter (j.covers s.tiles.wt)
       t.drive.sent = some ⟨j.mode, j.row, j.first, j.last, span.map fun i => (s.composer.pixels.getD i none).getD 0⟩)) ∧
    (s.drive.retriesUsed < s.cfg.param 26 →
      exec (.riseExpiry false) s = .next { s with
        drive := { s.drive with ben := false, retriesUsed := s.drive.retriesUsed + 1 }
        timers := { s.timers with rise := s.timers.rise.expire, retry := s.timers.retry.start } }) ∧
    (s.cfg.param 26 ≤ s.drive.retriesUsed → s.classHolds .booster = true →
      ∃ t, exec (.riseExpiry false) s = .next t ∧ PanelWork s t ∧
        t.drive = { s.drive with booster := .off, ben := false, granted := none } ∧
        t.tiles = s.tiles.returnJob s.notices.jobClass n ∧
        t.faults = s.faults.raise .booster301 s.clock.stamp)) ∧
  (∀ (j : Job) (wt : Nat) (tiles : List Tile),
    snapshotOf j wt 0 tiles =
      ((List.range tiles.length).filter (j.covers wt)).map fun i => (tiles.getD i (.unknown none)).wanted)

/-- R159: at the expiry of the retry pause timer, in RISING, BEN is raised again and the rise timer is started with P25 as it
stands; the state is RISING throughout, and STATUS reports it so before and after. -/
def Obligations.RetryPauseRaisesTheBoosterAgain : Prop :=
  ∀ s : State, s.timers.retry.running = true → s.drive.booster = .rising → s.timersSound →
    ∃ t, exec .retryPauseExpiry s = .next t ∧
      t = { s with
        drive := { s.drive with ben := true }
        timers := { s.timers with
          retry := s.timers.retry.stop
          rise := { s.timers.rise with remaining := s.cfg.param 25, running := true } } } ∧
      t.drive.booster = .rising ∧ s.statusData.getD 21 0 = 1 ∧ t.statusData.getD 21 0 = 1

/-- R67, R157, R160: the linger expiry, when the count has reached zero in READY, lowers the booster; during an identity exchange it
waits, and before the count has reached zero nothing happens. A due expiry and a grant reach the Panel Drive together: the expiry
first, the rise goes uncharged, the grant first, the drive starts and the expiry does not happen; the model's schedule chooses
(notes/assumptions/46.md). -/
def Obligations.LingerExpiryLowersTheBooster : Prop :=
  (∀ s : State, s.timers.linger.running = true → s.timers.linger.remaining = 0 → s.drive.booster = .ready →
    s.attemptWaiting = false →
    (s.drive.exchange = none →
      exec .lingerExpiry s = .next { s with
        drive := { s.drive with booster := .off, ben := false }
        timers := { s.timers with linger := s.timers.linger.expire } }) ∧
    (s.drive.exchange ≠ none →
      exec .lingerExpiry s = .next { s with
        drive := { s.drive with held := s.drive.held ++ [.lingerExpiry] }
        timers := { s.timers with linger := s.timers.linger.expire } })) ∧
  (∀ s : State, s.timers.linger.running = false ∨ s.timers.linger.remaining ≠ 0 → exec .lingerExpiry s = .next s) ∧
  (∀ (s : State) (rest : List Bool), s.timers.linger.running = true → s.timers.linger.remaining = 0 →
    s.drive.booster = .ready → s.drive.supplyAbove = true →
    (s.schedule = true :: rest →
      s.meetBooster = { s with
        schedule := rest
        drive := { s.drive with booster := .rising, ben := true }
        timers := { s.timers with linger := s.timers.linger.expire, rise := s.timers.rise.start } }) ∧
    (s.schedule = false :: rest →
      s.meetBooster = State.startDrive { s with
        schedule := rest
        timers := { s.timers with linger := s.timers.linger.stop } }))

/-- R114, R120 to R123, R125, R130, R165: a frame end counts the frame; the last one completes the job, the booster stays up, every
tile of the span takes its snapshot value, its new ghost count and its clear-due mark, and every other tile keeps all three.
Formation, which a completion runs for the rows concerned, groups the candidates of a row into spans and queues them from left to
right while fewer than 16 jobs are there, each under the lowest free number with its mode, class and enqueue time, its tiles
referring to it; the class that the notice band gives is never CLEAN (R114). -/
def Obligations.FrameEndCountsAndCompletes : Prop :=
  (∀ (s : State) (n : Nat) (j : Job), s.drive.booster = .driving → s.drive.cutFrame = false →
    s.drive.brownedOut = false → s.drive.exchange = none → s.drive.held = [] → s.attemptWaiting = false →
    s.drive.granted = some n → s.tiles.job n = some j →
    (s.drive.framesDriven + 1 ≠ s.drive.frameCount →
      exec .frameEnd s = .next { s with drive := { s.drive with framesDriven := s.drive.framesDriven + 1 } }) ∧
    (s.drive.framesDriven + 1 = s.drive.frameCount → s.sizeDiffers = false → s.timersSound → s.configSound →
      ∃ t, exec .frameEnd s = .next t ∧ PanelWork s t ∧ t.faults = s.faults ∧
        (t.drive.booster = .ready ∨ t.drive.booster = .driving) ∧ t.drive.ben = true ∧
        t.tiles.tiles.length = s.tiles.tiles.length ∧
        ∀ (i : Nat) (a b : Tile), s.tiles.tiles[i]? = some a → t.tiles.tiles[i]? = some b →
          (j.covers s.tiles.wt i = false → b.shown = a.shown ∧ b.ghost = a.ghost ∧ b.clearDue = a.clearDue) ∧
          (j.covers s.tiles.wt i = true →
            b.shown = (j.snapshot[((List.range i).filter (j.covers s.tiles.wt)).length]?).getD none ∧
            (j.mode = .fullMode → b.ghost = 0 ∧ b.clearDue = false) ∧
            (j.mode = .partialMode → b.ghost = min (a.ghost + 1) 63 ∧
              (b.clearDue = true ↔ a.clearDue = true ∨ s.cfg.param 17 ≤ b.ghost))))) ∧
  (∀ (row : List Tile) (c : Nat), c ∈ candidates 0 row ↔
    ∃ x, row[c]? = some x ∧ x.job = none ∧ (x.shown = none ∨ (x.wanted ≠ none ∧ x.wanted ≠ x.shown))) ∧
  (∀ (row : List Tile) (c d : Nat) (cs : List Nat),
    spansOf row [] = [] ∧ spansOf row [c] = [(c, c)] ∧
    spansOf row (c :: d :: cs) =
      if d - c ≤ 4 ∧ ((row.drop (c + 1)).take (d - c - 1)).all (fun x => x.job.isNone) = true then
        match spansOf row (d :: cs) with
        | [] => []
        | (_, l) :: rest => (c, l) :: rest
      else (c, c) :: spansOf row (d :: cs)) ∧
  (∀ (tm : TileMap) (band : JobClass) (r : Nat), band ≠ .clean →
    let formed := (tm.formRow band r).1
    let old := tm.jobs.filter fun j => j.state == .queued && j.row == r && j.cls != .clean
    let freed := tm.removeJobs fun j => j.state == .queued && j.row == r && j.cls != .clean
    let row := freed.rowTiles r
    let spans := spansOf row (candidates 0 row)
    (tm.queuedClean ≠ none → formed = tm) ∧
    (tm.queuedClean = none →
      ∃ added : List Job, formed = { freed with jobs := freed.jobs ++ added, tiles := formed.tiles } ∧
        added.map (fun j => (j.first, j.last)) = spans.take (16 - freed.jobs.length) ∧
        (∀ before j after, added = before ++ j :: after →
          j.state = .queued ∧ j.row = r ∧ j.snapshot = [] ∧
          (∀ o ∈ freed.jobs ++ before, o.num ≠ j.num) ∧ (∀ m, m < j.num → ∃ o ∈ freed.jobs ++ before, o.num = m) ∧
          (j.mode = .fullMode ↔
            ∃ x ∈ (row.drop j.first).take (j.last - j.first + 1), x.shown = none ∨ x.clearDue = true) ∧
          j.cls = (if r = 0 then (if tm.wt ≤ j.first + 2 then .clock else .row)
            else if r + 1 = tm.ht then band else .row) ∧
          (let covered := old.filter fun o => decide (o.first ≤ j.last) && decide (j.first ≤ o.last)
           (covered = [] → j.enqueue = tm.elapsed) ∧
             (covered ≠ [] → (∃ o ∈ covered, o.enqueue = j.enqueue) ∧ ∀ o ∈ covered, j.enqueue ≤ o.enqueue))) ∧
        formed.tiles.length = freed.tiles.length ∧
        ∀ (i : Nat) (a b : Tile), freed.tiles[i]? = some a → formed.tiles[i]? = some b →
          (∀ j ∈ added, j.covers tm.wt i = true → b = { a with job := some j.num }) ∧
          ((∀ j ∈ added, j.covers tm.wt i = false) → b = a)))

/-- R132, R166: the frame end after a brownout lowers the booster, takes the shown signature of every tile of the span, marks it
clear-due, and raises DRIVE/311; every other tile keeps its shown signature. -/
def Obligations.BrownoutAbortsAtTheFrameEnd : Prop :=
  ∀ (s : State) (n : Nat) (j : Job), s.drive.booster = .driving → s.drive.cutFrame = false →
    s.drive.brownedOut = true → s.drive.supplyAbove = false → s.drive.exchange = none → s.drive.held = [] →
    s.attemptWaiting = false → s.drive.granted = some n → s.tiles.job n = some j → s.sizeDiffers = false →
    ∃ t, exec .frameEnd s = .next t ∧ PanelWork s t ∧ t.drive.booster = .off ∧ t.drive.ben = false ∧
      t.faults = s.faults.raise .drive311 s.clock.stamp ∧ t.tiles.tiles.length = s.tiles.tiles.length ∧
      ∀ (i : Nat) (a b : Tile), s.tiles.tiles[i]? = some a → t.tiles.tiles[i]? = some b →
        b.ghost = a.ghost ∧ (j.covers s.tiles.wt i = false → b.shown = a.shown) ∧
        (j.covers s.tiles.wt i = true → b.shown = none ∧ b.clearDue = true)

/-- R157, R164, R167: the end of a cut frame clears its flag and raises DRIVE/312; the booster is READY with the linger timer
started, or OFF after a brownout. A grant that waits for it is then taken: in READY the drive starts at once, and in OFF the booster
rises or the job waits for supply. OFF after a brownout that came before the request reset too, and OFF although the level has risen
again since, are read from R166 and R167 (notes/assumptions/26.md). -/
def Obligations.CutFrameEndsWithDrive312 : Prop :=
  ∀ s : State, s.drive.booster = .driving → s.drive.cutFrame = true → s.drive.exchange = none → s.drive.held = [] →
    s.attemptWaiting = false →
    let faults := s.faults.raise .drive312 s.clock.stamp
    let drive : Drive := { s.drive with cutFrame := false, brownedOut := false }
    (s.drive.granted = none →
      (s.drive.brownedOut = false →
        exec .frameEnd s = .next { s with
          drive := { drive with booster := .ready, ben := true }
          timers := { s.timers with linger := s.timers.linger.start }
          faults := faults }) ∧
      (s.drive.brownedOut = true →
        exec .frameEnd s = .next { s with drive := { drive with booster := .off, ben := false }, faults := faults })) ∧
    (s.drive.granted ≠ none →
      (∀ (n : Nat) (j : Job), s.drive.granted = some n → s.tiles.job n = some j → s.drive.brownedOut = false →
        s.timersSound → s.configSound →
        let span := (List.range s.composer.pixels.length).filter (j.covers s.tiles.wt)
        exec .frameEnd s = .next { s with
          drive := { drive with
            booster := .driving, ben := true, framesDriven := 0
            sent := some ⟨j.mode, j.row, j.first, j.last, span.map fun i => (s.composer.pixels.getD i none).getD 0⟩ }
          timers := { s.timers with linger := s.timers.linger.stop }
          tiles := { s.tiles with jobs := s.tiles.jobs.map fun k =>
            if k.num = n then { k with state := .driving, snapshot := snapshotOf k s.tiles.wt 0 s.tiles.tiles } else k }
          faults := faults }) ∧
      (s.drive.brownedOut = true → s.drive.supplyAbove = false →
        exec .frameEnd s = .next { s with drive := { drive with booster := .off, ben := false }, faults := faults }) ∧
      (s.drive.brownedOut = true → s.drive.supplyAbove = true →
        exec .frameEnd s = .next { s with
          drive := { drive with booster := .rising, ben := true }
          timers := { s.timers with rise := s.timers.rise.start }
          faults := faults }))

/-- R133, R161, R166, R170: a brownout acts by the booster state: nothing in OFF, the rise abandoned, the job returned without a
fault and the return's grant attempt in RISING, the booster lowered in READY, and the abort at the frame end in DRIVING; a rise of
the level starts the rise of a job that waits for supply, and has no other effect; during an identity exchange both wait. The level
follows VSTORE against P20, at a reading and at a new P20; where it stands when the two are equal, and what VSTORE is at a new P20,
are the model's (notes/assumptions/29.md). -/
def Obligations.SupplyLevelActsByBoosterState : Prop :=
  (∀ s : State, s.powered = true → s.drive.supplyAbove = true → s.drive.exchange = none → s.drive.held = [] →
    s.attemptWaiting = false →
    (s.drive.booster = .off → exec .brownout s = .next { s with drive := { s.drive with supplyAbove := false } }) ∧
    (s.drive.booster = .ready →
      exec .brownout s = .next { s with
        drive := { s.drive with supplyAbove := false, booster := .off, ben := false }
        timers := { s.timers with linger := s.timers.linger.stop } }) ∧
    (s.drive.booster = .driving →
      exec .brownout s = .next { s with drive := { s.drive with supplyAbove := false, brownedOut := true } }) ∧
    (s.drive.booster = .rising →
      let abandoned : State := { s with
        drive := { s.drive with supplyAbove := false, booster := .off, ben := false, granted := none }
        timers := { s.timers with rise := s.timers.rise.stop, retry := s.timers.retry.stop }
        tiles := (match s.drive.granted with
          | none => s.tiles
          | some n => s.tiles.returnJob s.notices.jobClass n) }
      exec .brownout s = .next abandoned.attempt ∧
      (s.holdLatched = true → exec .brownout s = .next abandoned))) ∧
  (∀ (tm : TileMap) (band : JobClass) (n : Nat) (j : Job), tm.job n = some j →
    (∀ k, tm.queuedClean = some k → tm.returnJob band n = { tm with
      jobs := tm.jobs.filter fun i => i.num ≠ n
      tiles := tm.tiles.map fun x => if x.job = some n then { x with job := some k.num } else x }) ∧
    (tm.queuedClean = none →
      tm.returnJob band n =
        (TileMap.formRow { tm with jobs := tm.jobs.map fun i => if i.num = n then { i with state := .queued } else i }
          band j.row).1)) ∧
  (∀ s : State, s.powered = true → s.drive.supplyAbove = false → s.drive.exchange = none → s.drive.held = [] →
    s.attemptWaiting = false →
    (s.drive.booster = .off ∧ s.drive.granted ≠ none →
      exec .supplyLevelRise s = .next { s with
        drive := { s.drive with supplyAbove := true, ben := true, booster := .rising }
        timers := { s.timers with rise := s.timers.rise.start } }) ∧
    (¬(s.drive.booster = .off ∧ s.drive.granted ≠ none) →
      exec .supplyLevelRise s = .next { s with drive := { s.drive with supplyAbove := true } })) ∧
  (∀ s : State, s.attemptWaiting = false →
    (s.powered = true → s.above = true → s.drive.exchange ≠ none →
      exec .brownout s = .next { s with drive := { s.drive with held := s.drive.held ++ [.brownout] } }) ∧
    (s.powered = true → s.above = false → s.drive.exchange ≠ none →
      exec .supplyLevelRise s = .next { s with drive := { s.drive with held := s.drive.held ++ [.supplyRise] } }) ∧
    (s.powered = false ∨ s.above = false → exec .brownout s = .next s) ∧
    (s.powered = false ∨ s.above = true → exec .supplyLevelRise s = .next s)) ∧
  (∀ (s : State) (mv : Int),
    (mv = s.cfg.param 20 → s.seeVoltage mv = s) ∧
    (mv < s.cfg.param 20 → s.seeVoltage mv = if s.above then s.driveEvent .brownout else s) ∧
    (s.cfg.param 20 < mv → s.seeVoltage mv = if s.above then s else s.driveEvent .supplyRise)) ∧
  (∀ (s : State) (old : Nat), ∃ v : Int,
    s.handParam 20 old = State.seeVoltage { s with freeCount := s.freeCount + 1 } v ∧
    (s.above = true → old < v) ∧ (s.above = false → v ≤ old))

/-- R133, R157, R160, R164, R170, R171, R173: at a full clean's grant a matching answer lets the clean go ahead, and so does a
mismatch or no answer with PANEL at CONTINUE, whose fault is raised first: in OFF the booster rises, or waits for supply, in READY
the drive starts at once, and during a cut frame the clean waits for its end. With PANEL at HOLD a mismatch or no answer raises its
fault and returns the clean, the booster left in its state. PANEL's disposition is that of bit 1 of the P39 in force at the end of
the exchange, which is the model's choice (notes/assumptions/61.md), and so is the exchange during a cut frame
(notes/assumptions/47.md). A linger expiry that waited for the exchange may be taken before the clean goes ahead, which then rises
without a further debit; the model's schedule chooses (notes/assumptions/9.md). -/
def Obligations.IdentityDecidesTheCleansGrant : Prop :=
  (∀ (s : State) (n : Nat) (answer : Option (Byte × Byte)) (faults : FaultUnit), s.drive.exchange = some .clean →
    s.drive.held = [] → s.drive.granted = some n → s.attemptWaiting = false →
    let fits := ∃ w h : Byte, answer = some (w, h) ∧ w.toNat = s.tiles.wt ∧ h.toNat = s.tiles.ht
    let raised := s.faults.raise (if answer = none then .panel202 else .panel201) s.clock.stamp
    let holds := (s.cfg.param 39).testBit 1 = true
    let drive : Drive := { s.drive with exchange := none }
    ((fits ∧ faults = s.faults) ∨ (¬fits ∧ ¬holds ∧ faults = raised) →
      (s.drive.booster = .off → s.drive.supplyAbove = true →
        exec (.identityExchange answer) s = .next { s with
          drive := { drive with ben := true, booster := .rising }
          timers := { s.timers with rise := s.timers.rise.start }
          faults := faults }) ∧
      (s.drive.booster = .off → s.drive.supplyAbove = false →
        exec (.identityExchange answer) s = .next { s with drive := drive, faults := faults }) ∧
      (∀ j, s.tiles.job n = some j → s.drive.booster = .ready →
        s.timers.linger.running = false ∨ s.timers.linger.remaining ≠ 0 →
        let span := (List.range s.composer.pixels.length).filter (j.covers s.tiles.wt)
        exec (.identityExchange answer) s = .next { s with
          drive := { drive with
            booster := .driving, framesDriven := 0, brownedOut := false
            sent := some ⟨j.mode, j.row, j.first, j.last, span.map fun i => (s.composer.pixels.getD i none).getD 0⟩ }
          timers := { s.timers with linger := s.timers.linger.stop }
          tiles := { s.tiles with jobs := s.tiles.jobs.map fun k =>
            if k.num = n then { k with state := .driving, snapshot := snapshotOf k s.tiles.wt 0 s.tiles.tiles } else k }
          faults := faults }) ∧
      (s.drive.booster = .driving →
        exec (.identityExchange answer) s = .next { s with drive := drive, faults := faults })) ∧
    (¬fits → holds →
      ∃ t, exec (.identityExchange answer) s = .next t ∧ PanelWork s t ∧
        t.drive = { s.drive with exchange := none, granted := none } ∧
        t.tiles = s.tiles.returnJob s.notices.jobClass n ∧ t.faults = raised)) ∧
  (∀ (s : State) (n : Nat) (w h : Byte) (rest : List Bool), s.drive.exchange = some .clean →
    s.drive.held = [.lingerExpiry] → s.drive.granted = some n → s.attemptWaiting = false → s.drive.booster = .ready →
    s.drive.supplyAbove = true → w.toNat = s.tiles.wt → h.toNat = s.tiles.ht → s.schedule = true :: rest →
    exec (.identityExchange (some (w, h))) s = .next { s with
      schedule := rest
      drive := { s.drive with exchange := none, held := [], ben := true, booster := .rising }
      timers := { s.timers with rise := s.timers.rise.start } })

/-- R170, R194: the answer of the start-up exchange ends start-up: a full clean is in the queue, CLOCK/701 is the last fault,
"start-up complete" is news, and the part takes requests from then on. -/
def Obligations.StartUpEndsWithTheClean : Prop :=
  ∀ (s : State) (answer : Option (Byte × Byte)), s.drive.exchange = some .startUp → s.drive.held = [] →
    s.attemptWaiting = false → s.clock.time = none → s.link.write = none → s.link.resetAfter = none →
    ∃ t, exec (.identityExchange answer) s = .next t ∧ t.phase = .running ∧ t.takesRequests = true ∧
      t.tiles.hasClean = true ∧ t.faults.last = some ⟨.clock701, none⟩ ∧ t.faults.isLatched .clock = true ∧
      t.faults.news &&& 0x2000 ≠ 0 ∧ t.attn = true ∧
      (¬(∃ w h : Byte, answer = some (w, h) ∧ w.toNat = s.tiles.wt ∧ h.toNat = s.tiles.ht) →
        t.faults.isLatched .panel = true)

/-- R74, R129, R140 to R142, R149 to R152, R157, R171: the arbiter grants only a QUEUED job that passes every eligibility test while
none is in hand, and none that goes before it is passed over; an attempt with an eligible job grants one, and any other leaves
everything as it was. The grant debits the job's cost, makes it GRANTED, and gives it to the Panel Drive with its frame count: from
OFF it rises or waits for supply, in READY it drives at once, and during a cut frame it waits; a full clean makes its identity
exchange, during a cut frame too, which is the model's choice (notes/assumptions/47.md). A clean that finds a change of size first
applies it: records of the new size, all in the clean and with the wanted signatures of a recomposition from EMPTY rows, and a span
over the whole new panel, at the cost of the old size. Cost, reserve, band and order are those of the rules. -/
def Obligations.GrantMeetsEveryCondition : Prop :=
  (∀ (s : State) (j : Job) (band : Nat), s.chooseJob = some (j, band) →
    j ∈ s.tiles.jobs ∧ j.state = .queued ∧ (∀ k ∈ s.tiles.jobs, k.inHand = false) ∧ s.holdLatched = false ∧
    (∃ c, s.energy.temp = some c ∧ -10 ≤ c ∧ c ≤ 55 ∧ bandOf c = some band) ∧
    ¬(j.cls = .clean ∧ s.energy.conserve = true ∧ s.tiles.spanUnknown j = false) ∧
    s.cost j band + s.reserve j ≤ s.energy.estimate ∧
    (∀ k ∈ s.tiles.jobs, s.eligible band k = true → k.goesBefore s.tiles.elapsed j = false) ∧
    s.attempt.energy.estimate + s.cost j band = s.energy.estimate) ∧
  (∀ s : State,
    (s.chooseJob = none → s.attempt = s) ∧
    (s.phase = .running → (∀ k ∈ s.tiles.jobs, k.inHand = false) → s.holdLatched = false →
      ∀ (c : Int) (band : Nat) (k : Job), s.energy.temp = some c → bandOf c = some band → k ∈ s.tiles.jobs →
        k.state = .queued → ¬(k.cls = .clean ∧ s.energy.conserve = true ∧ s.tiles.spanUnknown k = false) →
        s.cost k band + s.reserve k ≤ s.energy.estimate → ∃ j, s.chooseJob = some (j, band))) ∧
  (∀ (s : State) (j : Job) (band : Nat), s.chooseJob = some (j, band) → (s.tiles.jobs.map (·.num)).Nodup →
    let frames := match j.mode with
      | .partialMode => s.cfg.wave band / 256 % 256
      | .fullMode => s.cfg.wave band % 256
    let debited : Energy := { s.energy with estimate := s.energy.estimate - s.cost j band }
    let jobs (f : Job → Job) : List Job := s.tiles.jobs.map fun k => if k.num = j.num then f k else k
    let drive : Drive :=
      { s.drive with granted := some j.num, frameCount := frames, framesDriven := 0, retriesUsed := 0 }
    let granted : State := { s with
      energy := debited
      tiles := { s.tiles with jobs := jobs fun k => { k with state := .granted } }
      drive := drive }
    (j.cls ≠ .clean →
      (s.drive.booster = .off → s.drive.supplyAbove = true →
        s.attempt = { granted with
          drive := { drive with ben := true, booster := .rising }
          timers := { s.timers with rise := s.timers.rise.start } }) ∧
      (s.drive.booster = .off → s.drive.supplyAbove = false → s.attempt = granted) ∧
      (s.drive.booster = .ready → s.timers.linger.due = false →
        let span := (List.range s.composer.pixels.length).filter (j.covers s.tiles.wt)
        s.attempt = { granted with
          timers := { s.timers with linger := s.timers.linger.stop }
          drive := { drive with
            booster := .driving, brownedOut := false
            sent := some ⟨j.mode, j.row, j.first, j.last, span.map fun i => (s.composer.pixels.getD i none).getD 0⟩ }
          tiles := { s.tiles with
            jobs := jobs fun k => { k with state := .driving, snapshot := snapshotOf j s.tiles.wt 0 s.tiles.tiles } } }) ∧
      (s.drive.booster = .driving → s.attempt = granted)) ∧
    (j.cls = .clean → s.sizeDiffers = false →
      s.attempt = { granted with drive := { drive with exchange := some .clean } }) ∧
    (j.cls = .clean → s.sizeDiffers = true → s.cfg.inRange = true →
      let t := s.attempt
      let wt := s.cfg.param 1
      let ht := s.cfg.param 2
      PanelWork s t ∧ t.energy = debited ∧ t.drive = { drive with exchange := some .clean } ∧ t.timers = s.timers ∧
        t.tiles.wt = wt ∧ t.tiles.ht = ht ∧ t.tiles.tiles.length = wt * ht ∧
        t.tiles.job j.num = some { j with state := .granted, row := 0, first := 0, last := wt - 1 } ∧
        t.composer.rows =
          State.evaluate { s with composer := { s.composer with rows := List.replicate (ht - 2) .empty } } ∧
        ∀ (i : Nat) (x : Tile), t.tiles.tiles[i]? = some x →
          x.shown = none ∧ x.ghost = 0 ∧ x.clearDue = false ∧ x.job = some j.num ∧
          ∃ px, t.composer.pixels[i]? = some (some px) ∧ x.wanted = some (signature px))) ∧
  (∀ (s : State) (j : Job) (band : Nat),
    let tiles := if j.cls = .clean then s.tiles.wt * s.tiles.ht else j.last - j.first + 1
    let frames := match j.mode with
      | .partialMode => s.cfg.wave band / 256 % 256
      | .fullMode => s.cfg.wave band % 256
    let work := tiles * frames * s.cfg.param 23
    (∃ frame, s.cost j band = frame + (if s.drive.booster = .off then s.cfg.param 24 else 0) ∧
      work ≤ frame * 1000 ∧ frame * 1000 < work + 1000) ∧
    (j.cls = .noticeUrgent → s.reserve j = s.cfg.param 28) ∧
    (j.cls = .row ∨ j.cls = .notice ∨ j.cls = .clock → s.reserve j = s.cfg.param 29) ∧
    (j.cls = .clean → (∃ x ∈ s.tiles.tiles, x.shown = none) → s.tiles.spanUnknown j = true ∧ s.reserve j = s.cfg.param 29) ∧
    (j.cls = .clean → (∀ x ∈ s.tiles.tiles, x.shown ≠ none) →
      s.tiles.spanUnknown j = false ∧ s.reserve j = s.cfg.param 30)) ∧
  (∀ (c : Int) (band : Nat), bandOf c = some band ↔
    ([-10, 0, 5, 10, 15, 25, 35, 45] : List Int).getD band 100 ≤ c ∧
      c ≤ ([-1, 4, 9, 14, 24, 34, 44, 55] : List Int).getD band 0) ∧
  (∀ (a b : Job) (elapsed : Nat), a.enqueue ≤ elapsed → b.enqueue ≤ elapsed →
    let base (j : Job) : Nat :=
      match j.cls with | .noticeUrgent => 1 | .row => 4 | .notice => 6 | .clock => 8 | .clean => 10
    let priority (j : Job) : Nat := base j - (elapsed - j.enqueue) / 30
    (a.goesBefore elapsed b = true ↔
      priority a < priority b ∨ (priority a = priority b ∧
        (a.enqueue < b.enqueue ∨ (a.enqueue = b.enqueue ∧
          (a.row < b.row ∨ (a.row = b.row ∧ a.first < b.first)))))))

/-! ### Energy Account -/

/-- R67, R136, R137, R139, R143, R144, R147, R161, R162: a sample, when the timer's count has reached zero, keeps both readings
saturated, sets E to the usable energy, less what a grant of the same step debits and exactly while a job is in hand, makes the
conserve test against the level that P21 gives, adds "conserve entered" and "conserve left" to the news exactly at the two changes,
and raises TEMP/401, TEMP/402 and SUPPLY/801 once each exactly where they are due, beside CONTENT faults alone. The comparator
compares the same VSTORE first, which is the model's order (notes/assumptions/29.md); a reading on the side that it reports already
changes nothing there. That TEMP/401 and TEMP/402 are raised in this step also while an identity exchange is in progress, which R170
makes one operation of the Panel Drive, is the model's choice (notes/assumptions/52.md). -/
def Obligations.SampleSetsTheAccount : Prop :=
  (∀ (s : State) (mv c : Int), s.timers.sample.running = true → s.timers.sample.remaining = 0 → s.attemptWaiting = false →
    let started : State := { s with timers := { s.timers with sample := s.timers.sample.expire } }
    let u := started.seeVoltage mv
    let vs := (max 0 (min 5500 mv)).toNat
    let temp := max (-40) (min 85 c)
    let level := ([2100, 2300, 2500, 2700, 2900, 3100, 3400, 3700] : List Nat).getD (s.cfg.param 21) 3700
    let conserve := if s.energy.conserve then decide (vs < level + 100) else decide (vs < level)
    (s.above = decide ((s.cfg.param 20 : Int) < mv) → u = started) ∧
    ∃ t, exec (.supplySample mv c) s = .next t ∧
      PanelWork { u with
        energy := { s.energy with
          vs := some vs, temp := some temp, conserve := conserve
          lowFlag := s.energy.lowFlag || decide (vs < level)
          duty := if conserve = s.energy.conserve then s.energy.duty else s.cfg.duty s.energy.window conserve } } t ∧
      t.energy.estimate ≤ usableEnergy (s.cfg.param 19) (s.cfg.param 20) vs ∧
      (t.drive.granted = none ∨ u.tiles.handJob ≠ none →
        t.energy.estimate = usableEnergy (s.cfg.param 19) (s.cfg.param 20) vs) ∧
      (∃ codes : List FaultCode,
        t.faults = codes.foldl (fun f c => f.raise c s.clock.stamp) { u.faults with
          news := u.faults.news ||| (if s.energy.conserve = false ∧ vs < level then 0x0200 else 0) |||
            (if s.energy.conserve = true ∧ level + 100 ≤ vs then 0x0400 else 0) } ∧
        (∀ c ∈ codes, c.cls = .content ∨ c = .temp401 ∨ c = .temp402 ∨ c = .supply801) ∧
        codes.count .temp401 = (if temp < -10 then 1 else 0) ∧ codes.count .temp402 = (if 55 < temp then 1 else 0) ∧
        codes.count .supply801 =
          (if vs < level ∧ (s.energy.conserve = false ∨ s.energy.lowFlag = false) then 1 else 0)) ∧
      t.faults.news &&& 0x0200 =
        (if s.energy.conserve = false ∧ vs < level then 0x0200 else s.faults.news &&& 0x0200) ∧
      t.faults.news &&& 0x0400 =
        (if s.energy.conserve = true ∧ level + 100 ≤ vs then 0x0400 else s.faults.news &&& 0x0400)) ∧
  (∀ (s : State) (mv c : Int), s.timers.sample.running = false ∨ s.timers.sample.remaining ≠ 0 →
    exec (.supplySample mv c) s = .next s)

/-- R138: the usable energy is 0 at or below the floor, else C × (Vs² − Vf²) / 20,000 rounded down, and at most 1,350,500 mJ over
the ranges of its inputs. -/
def Obligations.UsableEnergyIsExact : Prop :=
  ∀ c vf vs : Nat,
    (vs ≤ vf → usableEnergy c vf vs = 0) ∧
    (vf < vs →
      usableEnergy c vf vs * 20000 ≤ c * (vs ^ 2 - vf ^ 2) ∧
      c * (vs ^ 2 - vf ^ 2) < (usableEnergy c vf vs + 1) * 20000) ∧
    (c ≤ 1000 → 1800 ≤ vf → vs ≤ 5500 → usableEnergy c vf vs ≤ 1350500)

/-! ### Service Clock, sweep, elapsed seconds -/

/-- R22, R32, R61, R62, R63: a TIME_SET in range sets D from P05, adopts the second and the date, runs selection exactly when the
clock was UNSET or the date differs, raising TIMETABLE/601 exactly then when no VALID bank carries the date, rebuilds the board on
the roles that then stand except in case ADJUST, which keeps it, raises CLOCK/702 exactly in case JUMP, beside CONTENT faults alone,
and answers the case and the second; out of range it is refused RANGE and changes nothing. Selection supersedes, gives CURRENT and
NEXT, releases, and sets the reuse flag by the five steps of R32. The frontlight window holds the minutes from P40 on and before
P41, across midnight, and none where they are equal; the duty is 0 outside it, and P42 or, in conserve, P43 inside (R146, R147). -/
def Obligations.TimeSetAdoptsTheTime : Prop :=
  (∀ (s : State) (r : Request) (rest : List Request) (h m sec d1 d0 : Byte), s.headIs r rest → r.kind = 0x02 →
    r.payload = [h, m, sec, d1, d0] → s.attemptWaiting = false →
    let date := d1.toNat * 256 + d0.toNat
    (¬(h.toNat ≤ 23 ∧ m.toNat ≤ 59 ∧ sec.toNat ≤ 59) →
      exec .timeSet s = .next { s with link := s.link.answered r rest 4 s.faults.newsFlag [] }) ∧
    (h.toNat ≤ 23 ∧ m.toNat ≤ 59 ∧ sec.toNat ≤ 59 →
      ∃ (t : State) (news : Bool) (second : Nat) (case : Nat) (store : Store) (board : Board) (lit : Bool)
        (codes : List FaultCode), exec .timeSet s = .next t ∧
        PanelWork { s with
          clock := ⟨some ⟨second, date, s.cfg.param 5⟩, 0⟩
          energy := { s.energy with window := lit, duty := s.cfg.duty lit s.energy.conserve }
          store := store
          board := board
          link := s.link.answered r rest 0 news (b8 case ++ b24 second) } t ∧
        (second : Int) = ((h.toNat * 3600 + m.toNat * 60 + sec.toNat : Nat) - 60 * (s.cfg.param 5 : Int)) % 86400 ∧
        lit = s.cfg.lit ((second + 60 * s.cfg.param 5) % 86400 / 60) ∧
        (let missing := (case = 1 ∨ case = 2) ∧
           ¬∃ i, (s.store.supersede.bank i).state = .valid ∧ (s.store.supersede.bank i).date = date
         let stamp : Option Stamp := some ⟨date, (second + 60 * s.cfg.param 5) % 86400⟩
         t.faults = codes.foldl (fun f c => f.raise c stamp) s.faults ∧
           (∀ c ∈ codes, c.cls = .content ∨ c = .timetable601 ∨ c = .clock702) ∧
           (missing → codes.count .timetable601 = 1) ∧ (¬missing → codes.count .timetable601 = 0) ∧
           codes.count .clock702 = (if case = 3 then 1 else 0)) ∧
        (let rebuilt : Board := (State.rebuild { s with
          clock := ⟨some ⟨second, date, s.cfg.param 5⟩, 0⟩, store := store }).board
         let selected := store = s.store.select date ∧ board = rebuilt ∧
           (¬(∃ i, (s.store.supersede.bank i).state = .valid ∧ (s.store.supersede.bank i).date = date) →
             t.faults.isLatched .timetable = true)
         (s.clock.time = none → case = 1 ∧ selected) ∧
         (∀ u, s.clock.time = some u →
           (u.date ≠ date → case = 2 ∧ selected) ∧
           (u.date = date → second + 90 < u.second ∨ u.second + 90 < second →
             case = 3 ∧ store = s.store ∧ board = rebuilt ∧ t.faults.isLatched .clock = true) ∧
           (u.date = date → second ≤ u.second + 90 → u.second ≤ second + 90 →
             case = 4 ∧ store = s.store ∧ board = s.board))))) ∧
  (∀ (st : Store) (n : Nat),
    let same := st.bankA.state = .valid ∧ st.bankB.state = .valid ∧ st.bankA.date = st.bankB.date
    let u := st.supersede
    let t := st.select n
    (¬same → u = st) ∧
    (same → st.bankA.commit % 65536 = (st.bankB.commit + 1) % 65536 →
      u = { st with bankB := { st.bankB with state := .free, role := none } }) ∧
    (same → st.bankB.commit % 65536 = (st.bankA.commit + 1) % 65536 →
      u = { st with bankA := { st.bankA with state := .free, role := none } }) ∧
    (∀ i, (u.bank i).state = .valid → (u.bank i).date = n → (t.bank i).role = some .current ∧ t.reuse = false) ∧
    ((∀ i, (u.bank i).state = .valid → (u.bank i).date ≠ n) →
      ∀ i, (u.bank i).state = .valid → (u.bank i).date < n →
        ((∀ j, (u.bank j).state = .valid → (u.bank j).date < n → (u.bank j).date ≤ (u.bank i).date) →
          (t.bank i).role = some .current ∧ t.reuse = true)) ∧
    ((∀ i, (u.bank i).state = .valid → n < (u.bank i).date) → t.holder .current = none ∧ t.reuse = false) ∧
    (∀ i, (t.bank i).role = some .next ↔ (u.bank i).state = .valid ∧ n ≠ 65535 ∧ (u.bank i).date = n + 1) ∧
    (∀ i, (u.bank i).state = .valid → (u.bank i).date < n → (t.bank i).role ≠ some .current →
      (t.bank i).state = .free) ∧
    (∀ i, ¬((u.bank i).state = .valid ∧ (u.bank i).date < n) →
      t.bank i = { u.bank i with role := (t.bank i).role }) ∧
    (∀ i, (u.bank i).state ≠ .valid → (t.bank i).role = none)) ∧
  (∀ c : ConfigRecord,
    (∀ w, w < 1440 → c.param 40 < 1440 → c.param 41 < 1440 →
      (c.lit w = true ↔ (w + 1440 - c.param 40) % 1440 < (c.param 41 + 1440 - c.param 40) % 1440)) ∧
    (∀ conserve, c.duty false conserve = 0) ∧ c.duty true false = c.param 42 ∧ c.duty true true = c.param 43)

/-- R10, R60, R64, R65, R87, R127, R146: a second event advances the second and nothing else between minutes; at a minute the board
is refilled and the clock field and the rows are recomposed, then the wall minute of P18 queues the full clean and those of P40 and
P41 set the frontlight window, in an order that is the model's (notes/assumptions/48.md); an UNSET clock takes none. A refill adds
trips of the CURRENT and NEXT banks in the window, on a shown platform and not gone, as PLANNED entries; where there is room it
keeps every entry, adds no key that stands on the board, and leaves no trip offered out. -/
def Obligations.SecondEventAdvancesTheClock : Prop :=
  (∀ s : State, s.attemptWaiting = false →
    (s.clock.time = none → exec .secondEvent s = .next s) ∧
    (∀ u, s.clock.time = some u → u.second ≠ 86399 →
      let ticked : State := { s with clock := ⟨some { u with second := u.second + 1 }, 0⟩ }
      ((u.second + 1) % 60 ≠ 0 → exec .secondEvent s = .next ticked) ∧
      ((u.second + 1) % 60 = 0 →
        let w := (u.second + 1 + 60 * u.dayStart) % 86400 / 60
        let energy : Energy := if w = s.cfg.param 41 then { s.energy with window := false, duty := 0 }
          else if w = s.cfg.param 40 then { s.energy with window := true, duty := s.cfg.duty true s.energy.conserve }
          else s.energy
        let cleaned := if w = s.cfg.param 18 then (ticked.refill.1.recompose tickBands).queueFullClean
          else ticked.refill.1.recompose tickBands
        ∃ t, exec .secondEvent s = .next t ∧
          PanelWork { ticked with board := ticked.refill.1.board, energy := energy } t ∧
          t = State.settle { cleaned with
            energy := { cleaned.energy with window := energy.window, duty := energy.duty } } ∧
          (w = s.cfg.param 18 → t.tiles.hasClean = true)))) ∧
  (∀ (s : State) (u : ClockTime), s.clock.time = some u →
    let low : Int := u.second - s.cfg.param 7
    let high : Int := u.second + s.cfg.param 6 * 60
    let offered (x : Role) (p : Trip) : Prop := p ∈ s.roleTrips x ∧ low ≤ p.sched x ∧ p.sched x ≤ high ∧
      (s.cfg.param 4).testBit p.platform = true ∧ s.board.isGone p.key = false
    let r := s.refill.1
    r.board.gone = s.board.gone ∧
    (∀ e ∈ r.board.entries, e ∈ s.board.entries ∨
      ∃ x p, offered x p ∧
        e = ⟨p.key, if x = .current then .current else .next, p.dest, p.platform, some (p.sched x), none, .planned⟩) ∧
    (s.board.entries.length + (s.roleTrips .current).length + (s.roleTrips .next).length ≤ 32 →
      (∀ e ∈ s.board.entries, e ∈ r.board.entries) ∧
      (∀ e ∈ r.board.entries, e ∈ s.board.entries ∨ s.board.find e.key = none) ∧
      ∀ x p, offered x p → ∃ e ∈ r.board.entries, e.key = p.key))

/-- R7, R23, R24, R60, R65, R66, R127, R146: at second 86,399 the second becomes 0 and the date goes up by one, modulo 65,536. The
board is re-based: every time falls by 86,400, a scheduled or predicted second to no less than −120, NEXT becomes CURRENT, the
entries then below −grace leave as departures, and the gone records, their expiry less 86,400, leave below 0. Selection runs against
the new date, the rollover's refill follows and then that of the minute tick, "rollover done" is news, and the wall minute of P18
queues the full clean and those of P40 and P41 set the frontlight window. No entry below −grace is left on the board. -/
def Obligations.RolloverTurnsTheDay : Prop :=
  ∀ (s : State) (u : ClockTime), s.clock.time = some u → u.second = 86399 → s.attemptWaiting = false →
    let low : Int := -s.cfg.grace
    let less (x : Int) : Int := if x - 86400 < -120 then -120 else x - 86400
    let moved : List Entry := s.board.entries.map fun e => { e with
      sched := e.sched.map less
      pred := e.pred.map fun p => ⟨less p.second, p.stamp - 86400⟩
      origin := if e.origin = .next then .current else e.origin }
    let w := 60 * u.dayStart % 86400 / 60
    let energy : Energy := if w = s.cfg.param 41 then { s.energy with window := false, duty := 0 }
      else if w = s.cfg.param 40 then { s.energy with window := true, duty := s.cfg.duty true s.energy.conserve }
      else s.energy
    ∃ (t : State) (rebased : Board), exec .secondEvent s = .next t ∧
      (let turned : State := { s with
        clock := ⟨some ⟨0, (u.date + 1) % 65536, u.dayStart⟩, 0⟩
        store := s.store.select ((u.date + 1) % 65536)
        board := rebased }
       let board := turned.refill.1.refill.1.board
       PanelWork { turned with board := board, energy := energy } t ∧ ∀ e ∈ board.entries, low ≤ e.effective) ∧
      rebased.entries.Perm (moved.filter fun e => decide (low ≤ e.effective)) ∧
      (s.board.sound → rebased.ordered ∧
        GoneJoined ((s.board.gone.map fun g => { g with expiry := g.expiry - 86400 }).filter fun g => decide (0 ≤ g.expiry))
          (moved.filter fun e => decide (e.effective < low)) low s.cfg.grace rebased.gone) ∧
      t.faults.news &&& 0x0800 ≠ 0 ∧ (w = s.cfg.param 18 → t.tiles.hasClean = true)

/-- R67, R118: each second of the crystal counts the elapsed second and every running timer that counts in seconds, down to zero,
where it is due; the rise and retry pause timers count milliseconds and stay. That the timers count at this command and wait at
zero, and that those two counts stay, is the model's choice (notes/assumptions/3.md). What follows the top of the elapsed-second
count is free (notes/assumptions/12.md). Without power and in reset nothing counts, which is read from R118
(notes/assumptions/38.md). -/
def Obligations.ElapsedSecondCounts : Prop :=
  ∀ s : State,
    let count (x : Timer) : Timer := if x.running then { x with remaining := x.remaining - 1 } else x
    let timers : Timers :=
      { s.timers with
        sweep := count s.timers.sweep, sample := count s.timers.sample, rotation := count s.timers.rotation
        linger := count s.timers.linger, upload := count s.timers.upload }
    (s.powered = true → s.tiles.elapsed ≠ 4294967295 →
      exec .elapsedSecond s =
        .next { s with tiles := { s.tiles with elapsed := s.tiles.elapsed + 1 }, timers := timers }) ∧
    (s.powered = true → s.tiles.elapsed = 4294967295 →
      ∃ n, n ≤ 4294967295 ∧
        exec .elapsedSecond s = .next { s with tiles := { s.tiles with elapsed := n }, timers := timers }) ∧
    (s.powered = false → exec .elapsedSecond s = .next s)

/-- R7, R12, R13, R14, R67, R110, R112: a sweep, when the timer's count has reached zero, reloads its timer. Each LIVE entry whose
prediction is stale becomes LAPSED, or leaves if it is EXTRA; of the entries as they then are, those below now − grace leave as
departures and all others stay; then the expired gone records leave, and no other. Exactly the expired notices leave, and the
position and the rotation timer follow. With the clock UNSET nothing ages. -/
def Obligations.SweepAgesBoardAndNotices : Prop :=
  (∀ (s : State) (u : ClockTime), s.timers.sweep.running = true → s.timers.sweep.remaining = 0 →
    s.attemptWaiting = false → s.clock.time = some u →
    let low : Int := (u.second : Int) - s.cfg.grace
    let aged : List Entry := s.board.entries.filterMap fun e =>
      if e.state = .live ∧ (e.pred.any fun p => decide (s.cfg.stale < (u.second : Int) - p.stamp)) = true then
        (if e.origin = .extra then none else some { e with pred := none, state := .lapsed })
      else some e
    ∃ (t : State) (board : Board) (gone : List Gone) (notices : Notices) (rotation : Timer), exec .sweep s = .next t ∧
      PanelWork { s with
        board := board, notices := notices
        timers := { s.timers with sweep := s.timers.sweep.expire, rotation := rotation } } t ∧
      board.entries.Perm (aged.filter fun e => decide (low ≤ e.effective)) ∧
      (s.board.gone.length ≤ 32 →
        GoneJoined s.board.gone (aged.filter fun e => decide (e.effective < low)) low s.cfg.grace gone) ∧
      board.gone = gone.filter (fun g => decide ((u.second : Int) ≤ g.expiry)) ∧
      NoticesDecided s.notices notices s.timers.rotation rotation ∧
      (∀ e ∈ board.entries, (u.second : Int) - s.cfg.grace ≤ e.effective ∧
        ∃ a ∈ s.board.entries, a.key = e.key ∧ a.origin = e.origin ∧ a.sched = e.sched) ∧
      (∀ e ∈ board.entries, ∀ p, e.state = .live → e.pred = some p → (u.second : Int) - p.stamp ≤ s.cfg.stale) ∧
      (∀ g ∈ board.gone, (u.second : Int) ≤ g.expiry) ∧
      (∀ n, n ∈ notices.list ↔ n ∈ s.notices.list ∧
        ∀ e, n.ends = some e → e.date = u.date ∧ u.second < e.second)) ∧
  (∀ s : State, s.timers.sweep.running = true → s.timers.sweep.remaining = 0 → s.attemptWaiting = false →
    s.clock.time = none →
    ∃ t, exec .sweep s = .next t ∧ PanelWork { s with timers := { s.timers with sweep := s.timers.sweep.expire } } t) ∧
  (∀ s : State, s.timers.sweep.running = false ∨ s.timers.sweep.remaining ≠ 0 → exec .sweep s = .next s)

/-- R73, R76 to R87, R90, R91, R101 to R105: the evaluation that ends a sweep's board hand-over gives every departure row its
record: a message while UNSET or with an empty board, EMPTY beyond the board, and by the entry's state a clock time, "due", the
cancelled mark, or the countdown with its hysteresis. A field is rendered from its list of codes: each resolved, the line cut to its
field with the ellipsis, set from the left or the right, and its absent texts and glyphs reported. A recomposition of some bands
leaves in every tile it covers the signature of the tile's image: the pixels of the fields that R73 and R82 to R86 give its tile
row, side by side, cut at every 40th column (R90); every other tile keeps its wanted signature (R91). -/
def Obligations.SweepEvaluatesEveryRow : Prop :=
  (∀ s : State, s.timers.sweep.running = true → s.timers.sweep.remaining = 0 → s.attemptWaiting = false →
    s.sizeDiffers = false →
    ∃ t, exec .sweep s = .next t ∧ t.composer.rows.length = s.composer.rows.length ∧
      (s.imageSound → s.configSound → s.glyphsSound →
        ∀ i, 1 ≤ i / s.tiles.wt → i / s.tiles.wt + 1 < s.tiles.ht → t.wantsItsImage i) ∧
      ∀ (k : Nat) (old new : RowRecord), s.composer.rows[k]? = some old → t.composer.rows[k]? = some new →
        (s.clock.time = none → new = if k = 0 then .message .timeUnknown else .empty) ∧
        (∀ u, s.clock.time = some u →
          (t.board.entries = [] → new = if k = 0 then .message .noDepartures else .empty) ∧
          (t.board.entries ≠ [] → t.board.entries.length ≤ k → new = .empty) ∧
          (∀ e, t.board.entries[k]? = some e →
            let delta := e.effective - u.second
            let wall := ((e.effective / 60 + u.dayStart) % 1440).toNat
            let m := ((delta + 30) / 60).toNat
            let n := if s.energy.conserve = true ∧ 10 ≤ m then m / 5 * 5 else m
            (e.state = .cancelled → new = .cancelled e.key) ∧
            (e.state = .planned ∨ e.state = .lapsed → new = .clockTime e.key wall) ∧
            (e.state = .live → delta < 30 → new = .due e.key) ∧
            (e.state = .live → 30 ≤ delta → s.cfg.param 9 < m → new = .clockTime e.key wall) ∧
            (e.state = .live → 30 ≤ delta → m ≤ s.cfg.param 9 →
              (∀ v p, old = .countdown e.key v p →
                let next := v + if s.energy.conserve = true ∧ 10 ≤ v then 5 else 1
                (p = some n → new = .countdown e.key n none) ∧
                (p ≠ some n → n = next → new = .countdown e.key v (some n)) ∧
                (p ≠ some n → n ≠ next → new = .countdown e.key n none)) ∧
              ((∀ v p, old ≠ .countdown e.key v p) → new = .countdown e.key n none))))) ∧
  (∀ (s : State) (code : Nat),
    (∀ g, s.glyphEntry code = some g → s.resolve code = g) ∧
    (∀ g, s.glyphEntry code = none → s.glyphEntry 0 = some g → s.resolve code = g) ∧
    (s.glyphEntry code = none → s.glyphEntry 0 = none → s.resolve code = ⟨8, []⟩)) ∧
  (∀ (available : Nat) (ellipsis : Glyph) (gs : List Glyph), ellipsis.width ≤ available →
    (totalWidth gs ≤ available → fitLine available ellipsis gs = gs) ∧
    (available < totalWidth gs →
      ∃ run rest, gs = run ++ rest ∧ fitLine available ellipsis gs = run ++ [ellipsis] ∧
        totalWidth run + ellipsis.width ≤ available ∧
        ∀ g tail, rest = g :: tail → available < totalWidth run + g.width + ellipsis.width)) ∧
  (∀ (w : Nat) (right : Bool) (gs : List Glyph), (drawLine w right gs).length = 40 ∧
    ∀ k, (drawLine w right gs).getD k 0 =
      if 6 ≤ k ∧ k < 34 then drawRow w (k - 6) (if right then w - 4 - totalWidth gs else 4) gs else 0) ∧
  (∀ (w x r p : Nat) (gs : List Glyph), x + totalWidth gs ≤ w → (∀ g ∈ gs, g.width ≤ 40) → p < w →
    ((drawRow w r x gs).testBit (w - 1 - p) = true ↔
      ∃ before g after, gs = before ++ g :: after ∧ x + totalWidth before ≤ p ∧
        p < x + totalWidth before + g.width ∧ (g.rows.getD r 0).getMsbD (p - x - totalWidth before) = true)) ∧
  (∀ (s : State) (f : Field),
    let absent (id : Nat) : Prop := s.textCodes id = none
    let codes : List Nat :=
      match f.content with
      | .blank => []
      | .codes l => l
      | .text id => (s.textCodes id).getD []
      | .codesThenText l id => l ++ (s.textCodes id).getD []
    let gs := codes.map s.resolve
    (s.renderField f).1 = drawLine (40 * f.tiles) f.right (fitLine (40 * f.tiles - 4) (s.resolve 1) gs) ∧
    (s.renderField f).2.Nodup ∧
    (∀ c ∈ (s.renderField f).2, c = .content501 ∨ c = .content502) ∧
    (.content502 ∈ (s.renderField f).2 ↔
      (∃ id, f.content = .text id ∧ absent id) ∨ ∃ l id, f.content = .codesThenText l id ∧ absent id) ∧
    (.content501 ∈ (s.renderField f).2 ↔
      (∃ c ∈ codes, s.glyphEntry c = none) ∨
        (40 * f.tiles - 4 < totalWidth gs ∧ s.glyphEntry 1 = none))) ∧
  (∀ (s : State) (b : Bands), s.imageSound → s.configSound → s.glyphsSound → s.sizeDiffers = false →
    let wanted (x : State) (i : Nat) : Option (Option Signature) := x.tiles.tiles[i]?.map (·.wanted)
    let t := s.recompose b
    t.tiles.tiles.length = s.tiles.tiles.length ∧
      ∀ i, i < s.tiles.wt * s.tiles.ht →
        (b.cover s.tiles.wt s.tiles.ht i → t.wantsItsImage i) ∧
        (¬b.cover s.tiles.wt s.tiles.ht i → wanted t i = wanted s i))

/-! ### Prediction Intake -/

/-- R6, R7, R9, R15 to R21, R44 to R53: PREDICT with the clock UNSET is refused whole with seven counts of 0; with the clock RUNNING
every record is taken in turn and it is answered OK with seven counts that sum to the number of its records, and only the board and
the panel's work are touched. A record is read in the layout of R44 and judged by range (R47), by windows (R48, R49), by its
platform, from the lowest-numbered window that hits or, at KEEP, from the board, CURRENT or NEXT (R50), and by the shown platforms,
and then by its kind; an insertion meets the capacity of the board. A DEPARTED record that places a trip straight on the gone list
is APPLIED and makes no hand-over (changed = false), which is read from R6 and R21 (notes/assumptions/25.md). -/
def Obligations.PredictCountsEveryRecord : Prop :=
  (∀ (s : State) (r : Request) (rest : List Request), s.headIs r rest → r.kind = 0x0A →
    lengthAllowed 0x0A r.payload.length = true → s.attemptWaiting = false →
    (s.clock.time = none →
      exec .predict s = .next { s with link := s.link.answered r rest 5 s.faults.newsFlag (List.replicate 7 0) }) ∧
    (s.clock.time ≠ none →
      let a := s.intakeAll (predictsAt r.payload (r.payload.length / 12) 0)
      let counts := predictCounts a.2.1
      ∃ (t : State) (news : Bool), exec .predict s = .next t ∧
        PanelWork { s with board := a.1.board, link := s.link.answered r rest 0 news counts } t ∧
        counts.length = 7 ∧ 12 * (counts.map BitVec.toNat).sum = r.payload.length)) ∧
  (∀ (s : State) (p : PredictRecord),
    let platform := s.assignPlatform p
    (p.inRange = false → s.intake p = ⟨s, .range, false⟩) ∧
    (p.inRange = true → s.cfg.admits p.stop = false → s.intake p = ⟨s, .notMatched, false⟩) ∧
    (p.inRange = true → s.cfg.admits p.stop = true → s.cfg.shows platform = false →
      s.intake p = ⟨s, .notShown, false⟩) ∧
    (p.inRange = true → s.cfg.admits p.stop = true → s.cfg.shows platform = true →
      (p.kind = 1 →
        s.intake p = s.applyEstimate p.key platform p.second (if p.destPresent = 1 then some p.dest else none)) ∧
      (p.kind = 2 → s.intake p = s.applyCancel p.key platform) ∧
      (p.kind = 3 → s.intake p = s.applyDeparted p.key) ∧
      (p.kind = 4 → s.intake p = s.applyRestore p.key))) ∧
  (∀ (s : State) (e : Entry),
    ((s.insertFor e).state = (s.insertEntry e).1 ∧
      (s.insertFor e).outcome = if (s.insertEntry e).2 then .applied else .ignored) ∧
    (s.board.entries.length < 32 →
      s.insertEntry e = ({ s with board := { s.board with entries := placeEntry e s.board.entries } }, true)) ∧
    (∀ first last, s.board.entries = first ++ [last] → 32 ≤ s.board.entries.length →
      let faults := s.faults.raise .content503 s.clock.stamp
      (e.before last = true →
        s.insertEntry e =
          ({ s with faults := faults, board := { s.board with entries := placeEntry e first } }, true)) ∧
      (e.before last = false → s.insertEntry e = ({ s with faults := faults }, false)))) ∧
  (∀ (s : State) (k : Key),
    let low := s.now - s.cfg.grace
    let fits (x : Int) : Prop := low ≤ x ∧ x ≤ s.now + s.cfg.horizon
    let changed (a : Applied) (e : Entry) : Prop := a.outcome = .applied ∧ a.changed = true ∧
      a.state = { s with board := a.state.board } ∧ a.state.board.gone = s.board.gone ∧
      a.state.board.find k = some e ∧ ∀ x, x ≠ k → a.state.board.find x = s.board.find x
    let left (e : Entry) : Board :=
      ⟨s.board.entries.filter fun x => x.key != e.key,
        match e.sched with
        | none => s.board.gone
        | some x =>
          if e.origin ≠ .extra ∧ low ≤ x then
            s.board.gone.drop (s.board.gone.length - 31) ++ [⟨e.key, x + s.cfg.grace⟩]
          else s.board.gone⟩
    let estimate := s.applyEstimate k
    let cancel := s.applyCancel k
    (∀ e, s.board.find k = some e →
      (e.state = .cancelled →
        (∀ platform second dest, estimate platform second dest = ⟨s, .ignored, false⟩) ∧
        (∀ platform, cancel platform = ⟨s, .ignored, false⟩) ∧
        (e.origin = .extra →
          s.applyRestore k =
            ⟨{ s with board := { s.board with entries := s.board.entries.filter fun x => x.key != k } }, .applied, true⟩) ∧
        (e.origin ≠ .extra → changed (s.applyRestore k) { e with pred := none, state := .planned })) ∧
      (e.state ≠ .cancelled →
        (∀ platform second dest,
          (second < low → estimate platform second dest = ⟨{ s with board := left e }, .applied, true⟩) ∧
          (low ≤ second → changed (estimate platform second dest)
            { e with dest := dest.getD e.dest, pred := some ⟨second, s.now⟩, state := .live })) ∧
        (∀ platform,
          (e.origin = .extra → changed (cancel platform) { e with state := .cancelled }) ∧
          (e.origin ≠ .extra → ∀ x, e.sched = some x →
            (x < low → cancel platform =
              ⟨{ s with board := { s.board with entries := s.board.entries.filter fun y => y.key != e.key } },
                .applied, true⟩) ∧
            (low ≤ x → changed (cancel platform) { e with pred := none, state := .cancelled }))) ∧
        s.applyRestore k = ⟨s, .ignored, false⟩) ∧
      s.applyDeparted k = ⟨{ s with board := left e }, .applied, true⟩) ∧
    (s.board.find k = none →
      s.applyRestore k = ⟨s, .ignored, false⟩ ∧
      (s.board.isGone k = true →
        (∀ platform second dest, estimate platform second dest = ⟨s, .ignored, false⟩) ∧
        (∀ platform, cancel platform = ⟨s, .ignored, false⟩) ∧ s.applyDeparted k = ⟨s, .ignored, false⟩) ∧
      (s.board.isGone k = false →
        (∀ x p, s.findTrip k = some (x, p) →
          (∀ platform second dest,
            (fits second → estimate platform second dest = s.insertFor ⟨k, if x = .current then .current else .next,
              dest.getD p.dest, platform, some (p.sched x), some ⟨second, s.now⟩, .live⟩) ∧
            (¬fits second → estimate platform second dest = ⟨s, .outsideHorizon, false⟩)) ∧
          (∀ platform,
            (fits (p.sched x) → cancel platform = s.insertFor ⟨k, if x = .current then .current else .next,
              p.dest, platform, some (p.sched x), none, .cancelled⟩) ∧
            (¬fits (p.sched x) → cancel platform = ⟨s, .outsideHorizon, false⟩)) ∧
          (fits (p.sched x) →
            s.applyDeparted k = ⟨{ s with board := { s.board with
              gone := s.board.gone.drop (s.board.gone.length - 31) ++ [⟨k, p.sched x + s.cfg.grace⟩] } },
              .applied, false⟩) ∧
          (¬fits (p.sched x) → s.applyDeparted k = ⟨s, .ignored, false⟩)) ∧
        (s.findTrip k = none →
          (∀ platform second dest,
            (fits second → estimate platform second (some dest) =
              s.insertFor ⟨k, .extra, dest, platform, none, some ⟨second, s.now⟩, .live⟩) ∧
            (¬fits second → estimate platform second (some dest) = ⟨s, .outsideHorizon, false⟩) ∧
            estimate platform second none = ⟨s, .unknownTrip, false⟩) ∧
          (∀ platform, cancel platform = ⟨s, .unknownTrip, false⟩) ∧
          s.applyDeparted k = ⟨s, .ignored, false⟩)))) ∧
  (∀ (p : List Byte) (n : Nat),
    let byte (i : Nat) : Nat := (p.getD i 0).toNat
    let two (i : Nat) : Nat := byte i * 256 + byte (i + 1)
    (predictsAt p n 0).length = n ∧ ∀ k, k < n →
      (predictsAt p n 0)[k]? = some ⟨byte (12 * k), byte (12 * k + 1), BitVec.ofNat 16 (two (12 * k + 2)),
        ⟨two (12 * k + 4), two (12 * k + 6)⟩, two (12 * k + 8) * 256 + byte (12 * k + 10), byte (12 * k + 11)⟩) ∧
  (∀ p : PredictRecord, p.inRange = true ↔
    1 ≤ p.kind ∧ p.kind ≤ 4 ∧ 1 ≤ p.key.route ∧ p.key.route ≤ 999 ∧ 1 ≤ p.key.trip ∧
      (p.kind = 1 → p.second ≤ 100799 ∧ p.destPresent ≤ 1)) ∧
  (∀ (s : State) (p : PredictRecord),
    let hits (i : Nat) : Prop := (s.cfg.window i).enabled = true ∧
      ∀ k, k < 16 → (s.cfg.window i).mask.getLsbD k = true → p.stop.getLsbD k = (s.cfg.window i).base.getLsbD k
    (s.cfg.admits p.stop = true ↔ (∃ i, i ≤ 5 ∧ hits i) ∧ ¬hits 6 ∧ ¬hits 7) ∧
    (∀ i, i ≤ 5 → hits i → (∀ k, k < i → ¬hits k) →
      (∀ x, (s.cfg.window i).platform = some x → s.assignPlatform p = x) ∧
      ((s.cfg.window i).platform = none →
        (∀ e, s.board.find p.key = some e → s.assignPlatform p = e.platform) ∧
        (s.board.find p.key = none →
          (∀ x q, s.findTrip p.key = some (x, q) → s.assignPlatform p = q.platform) ∧
          (s.findTrip p.key = none → s.assignPlatform p = 0)))) ∧
    (∀ x, s.cfg.shows x = (s.cfg.param 4).testBit x)) ∧
  (∀ (s : State) (k : Key),
    let trips (x : Role) : List Trip :=
      if s.store.bankA.role = some x then s.flash.bankA.trips
      else if s.store.bankB.role = some x then s.flash.bankB.trips else []
    (∀ x q, s.findTrip k = some (x, q) → q ∈ trips x ∧ q.key = k ∧ (x = .next → ∀ y ∈ trips .current, y.key ≠ k)) ∧
    (s.findTrip k = none ↔ ∀ x, ∀ q ∈ trips x, q.key ≠ k) ∧
    (∀ e, s.board.find k = some e → e ∈ s.board.entries ∧ e.key = k) ∧
    (s.board.find k = none ↔ ∀ e ∈ s.board.entries, e.key ≠ k) ∧
    (s.board.isGone k = true ↔ ∃ g ∈ s.board.gone, g.key = k)) ∧
  (∀ l : List RecordOutcome, predictCounts l =
    [RecordOutcome.applied, .ignored, .notMatched, .notShown, .unknownTrip, .outsideHorizon, .range].map
      fun o => BitVec.ofNat 8 (l.filter (· == o)).length)

/-! ### Notices -/

/-- R107, R108, R111, R112: NOTICE_POST is refused RANGE, CLOCK_UNSET, RANGE for an end that has passed, or FULL, in this order, and
changes nothing then; otherwise the notice, with today's date at its end if it has one, is appended under a new id and keeps its
place under one that is present. The rotation position is kept while it names a notice of the top set and else names the first of
it, and the rotation timer restarts exactly when the top set has changed. -/
def Obligations.NoticePostFilesTheNotice : Prop :=
  ∀ (s : State) (r : Request) (rest : List Request) (id text priority ending e2 e1 e0 : Byte), s.headIs r rest →
    r.kind = 0x0B → r.payload = [id, text, priority, ending, e2, e1, e0] → s.attemptWaiting = false →
    let second := (e2.toNat * 256 + e1.toNat) * 256 + e0.toNat
    let refused (code : Nat) : State :=
      { s with link := s.link.answered r rest code s.faults.newsFlag ([id, 0] ++ b8 s.notices.list.length) }
    let inRange := 1 ≤ id.toNat ∧ 1 ≤ priority.toNat ∧ priority.toNat ≤ 4 ∧ ending.toNat ≤ 1 ∧
      (ending.toNat = 1 → second ≤ 86399)
    let known := ∃ x ∈ s.notices.list, x.id = id.toNat
    let timely := ending.toNat = 1 → ∃ u, s.clock.time = some u ∧ u.second < second
    (¬inRange → exec .noticePost s = .next (refused 4)) ∧
    (inRange → ending.toNat = 1 → s.clock.time = none → exec .noticePost s = .next (refused 5)) ∧
    (inRange → ending.toNat = 1 → s.clock.time ≠ none → ¬timely → exec .noticePost s = .next (refused 4)) ∧
    (inRange → timely → ¬known → 8 ≤ s.notices.list.length → exec .noticePost s = .next (refused 13)) ∧
    (inRange → timely → known ∨ s.notices.list.length < 8 →
      ∃ (t : State) (news : Bool) (n : Notice) (list : List Notice) (position : Nat) (rotation : Timer) (place : Nat),
        exec .noticePost s = .next t ∧
        PanelWork { s with
          notices := ⟨list, some position⟩
          timers := { s.timers with rotation := rotation }
          link := s.link.answered r rest 0 news ([id] ++ b8 place ++ b8 list.length) } t ∧
        (n.id = id.toNat ∧ n.text = text.toNat ∧ n.priority = priority.toNat ∧
          (ending = 0 → n.ends = none) ∧ (ending = 1 → ∃ u, s.clock.time = some u ∧ n.ends = some ⟨u.date, second⟩)) ∧
        (¬known → list = s.notices.list ++ [n] ∧ place = list.length) ∧
        (known → list = (s.notices.list.map fun x => if x.id = id.toNat then n else x) ∧
          ∃ x, list[place - 1]? = some x ∧ x.id = id.toNat ∧ 1 ≤ place) ∧
        (∃ x ∈ list, x.id = position ∧ ∀ y ∈ list, x.priority ≤ y.priority) ∧
        NoticesDecided s.notices ⟨list, some position⟩ s.timers.rotation rotation)

/-- R109, R111, R112: a known notice is withdrawn, the others kept in order, and the rotation position and the rotation timer follow
the top set that is left; an id of 0 is refused RANGE and an unknown one UNKNOWN_ID, each with the id and the count. -/
def Obligations.NoticeWithdrawRemovesTheNotice : Prop :=
  ∀ (s : State) (r : Request) (rest : List Request) (id : Byte), s.headIs r rest → r.kind = 0x0C → r.payload = [id] →
    s.attemptWaiting = false →
    let known := ∃ x ∈ s.notices.list, x.id = id.toNat
    (id = 0 → exec .noticeWithdraw s = .next { s with
      link := s.link.answered r rest 4 s.faults.newsFlag ([id] ++ b8 s.notices.list.length) }) ∧
    (id ≠ 0 → ¬known → exec .noticeWithdraw s = .next { s with
      link := s.link.answered r rest 14 s.faults.newsFlag ([id] ++ b8 s.notices.list.length) }) ∧
    (id ≠ 0 → known →
      ∃ (t : State) (news : Bool) (list : List Notice) (position : Option Nat) (rotation : Timer),
        exec .noticeWithdraw s = .next t ∧
        PanelWork { s with
          notices := ⟨list, position⟩
          timers := { s.timers with rotation := rotation }
          link := s.link.answered r rest 0 news ([id] ++ b8 list.length) } t ∧
        list = s.notices.list.filter (fun x => x.id ≠ id.toNat) ∧ (list = [] → position = none) ∧
        NoticesDecided s.notices ⟨list, position⟩ s.timers.rotation rotation)

/-- R67, R112, R113: at a rotation expiry, which comes only when the count has reached zero, the position moves to the notice of the
top set that follows, from the last to the first; with one notice or none in the top set, or in conserve, only the timer reloads. -/
def Obligations.RotationAdvancesThePosition : Prop :=
  (∀ s : State, s.timers.rotation.running = true → s.timers.rotation.remaining = 0 → s.attemptWaiting = false →
    (s.energy.conserve = true ∨ (topSet s.notices.list).length ≤ 1 →
      exec .rotation s = .next { s with timers := { s.timers with rotation := s.timers.rotation.expire } }) ∧
    (∀ (before after : List Notice) (a b : Notice), s.energy.conserve = false →
      topSet s.notices.list = before ++ a :: b :: after → s.notices.position = some a.id →
      (∀ x ∈ before, x.id ≠ a.id) →
      ∃ t, exec .rotation s = .next t ∧
        PanelWork { s with
          notices := { s.notices with position := some b.id }
          timers := { s.timers with rotation := s.timers.rotation.expire } } t) ∧
    (∀ (middle : List Notice) (a z : Notice), s.energy.conserve = false →
      topSet s.notices.list = a :: middle ++ [z] → s.notices.position = some z.id →
      (∀ x ∈ a :: middle, x.id ≠ z.id) →
      ∃ t, exec .rotation s = .next t ∧
        PanelWork { s with
          notices := { s.notices with position := some a.id }
          timers := { s.timers with rotation := s.timers.rotation.expire } } t)) ∧
  (∀ s : State, s.timers.rotation.running = false ∨ s.timers.rotation.remaining ≠ 0 → exec .rotation s = .next s)

/-! ### Uploads -/

/-- R29, R30, R34, R40: UPLOAD_BEGIN is refused ACTIVE or BAD_DATE, or makes the target FILLING without a role and starts its erase;
the erase's end starts the FILLING header write; that write's end opens the context, starts the idle timer and answers the target.
The count, check and commit number of the FILLING header are free (notes/assumptions/15.md). -/
def Obligations.UploadBeginOpensTheContext : Prop :=
  (∀ (s : State) (r : Request) (rest : List Request) (d1 d0 : Byte), s.headIs r rest → r.kind = 0x06 →
    r.payload = [d1, d0] →
    let date := d1.toNat * 256 + d0.toNat
    let inReach := s.clock.time = none ∨ ∃ u, s.clock.time = some u ∧
      (date = u.date ∨ (u.date ≠ 65535 ∧ date = u.date + 1))
    let target : BankId := if s.store.bankA.role = some .current then .b else .a
    (s.store.upload ≠ none →
      exec .uploadBegin s = .next { s with
        timers := { s.timers with upload := s.timers.upload.start }
        link := s.link.answered r rest 7 s.faults.newsFlag [] }) ∧
    (s.store.upload = none → ¬inReach →
      exec .uploadBegin s = .next { s with link := s.link.answered r rest 8 s.faults.newsFlag [] }) ∧
    (s.store.upload = none → inReach →
      exec .uploadBegin s = .next { s with
        store := s.store.setBank target { s.store.bank target with state := .filling, role := none }
        link := { s.link with write := some (.bankErase target date) } })) ∧
  (∀ (s : State) (i : BankId) (date : Nat), s.link.write = some (.bankErase i date) →
    exec (.bankEraseEnd true) s = .next { s with
      flash := s.flash.setBank i ⟨.erased, []⟩
      link := { s.link with write := some (.fillingHeader i date) } }) ∧
  (∀ (s : State) (i : BankId) (date : Nat) (r : Request) (rest : List Request),
    s.writing (.fillingHeader i date) r rest →
    ∃ (count : Nat) (check : BitVec 16) (commit : Nat), count ≤ 1200 ∧ commit ≤ 65535 ∧
    exec (.fillingHeaderWriteEnd true) s = .next { s with
      freeCount := s.freeCount + 1
      flash := s.flash.setBank i { s.flash.bank i with header := .good (.filling date count check commit) }
      store := { s.store.setBank i
          { s.store.bank i with date := date, count := count, check := check, commit := commit } with
        upload := some ⟨i, date, 0, 0, none, 0xFFFF⟩ }
      timers := { s.timers with upload := s.timers.upload.start }
      link := s.link.answered r rest 0 s.faults.newsFlag [if i = .a then 0 else 1] })

/-- R35, R36, R40: a trip block is refused NO_UPLOAD, SEQUENCE, RANGE, ORDER, DUPLICATE or FULL in that order with the expected
number and the trips so far, or, when it passes every test, is written after the records already there; the end of the write counts
it. -/
def Obligations.TripBlockIsTestedAndWritten : Prop :=
  (∀ (s : State) (r : Request) (rest : List Request) (number : Byte) (ts : List Trip), s.headIs r rest →
    r.kind = 0x07 → 1 ≤ ts.length → ts.length ≤ 16 → (∀ x ∈ ts, x.route < 65536 ∧ x.trip < 65536 ∧ x.minute < 65536 ∧
      x.dest < 256 ∧ x.platform < 256) → r.payload = number :: ts.flatMap Trip.bytes →
    (s.store.upload = none →
      exec .tripBlock s = .next { s with link := s.link.answered r rest 6 s.faults.newsFlag [0, 0, 0] }) ∧
    (∀ u, s.store.upload = some u →
      let touched : State := { s with timers := { s.timers with upload := s.timers.upload.start } }
      let data := b8 u.expected ++ b16 u.trips
      (number.toNat ≠ u.expected →
        exec .tripBlock s = .next { touched with link := s.link.answered r rest 9 s.faults.newsFlag data }) ∧
      (number.toNat = u.expected → ts.all Trip.inRange = false →
        exec .tripBlock s = .next { touched with link := s.link.answered r rest 4 s.faults.newsFlag data }) ∧
      let rises := (∀ x, u.lastMinute = some x → ∀ y ∈ ts, x ≤ y.minute) ∧ ts.Pairwise fun x y => x.minute ≤ y.minute
      let fresh := (ts.map Trip.key).Nodup ∧ ∀ x ∈ ts, ∀ y ∈ (s.flash.bank u.target).trips, x.key ≠ y.key
      (number.toNat = u.expected → ts.all Trip.inRange = true → ¬rises →
        exec .tripBlock s = .next { touched with link := s.link.answered r rest 10 s.faults.newsFlag data }) ∧
      (number.toNat = u.expected → ts.all Trip.inRange = true → rises → ¬fresh →
        exec .tripBlock s = .next { touched with link := s.link.answered r rest 11 s.faults.newsFlag data }) ∧
      (number.toNat = u.expected → ts.all Trip.inRange = true → rises → fresh → 1200 < u.trips + ts.length →
        exec .tripBlock s = .next { touched with link := s.link.answered r rest 13 s.faults.newsFlag data }) ∧
      (number.toNat = u.expected → ts.all Trip.inRange = true → rises → fresh → u.trips + ts.length ≤ 1200 →
        exec .tripBlock s = .next { touched with link := { s.link with write := some (.tripBlock ts) } }))) ∧
  (∀ (s : State) (r : Request) (rest : List Request) (ts : List Trip) (u : Upload) (last : Trip),
    s.writing (.tripBlock (ts ++ [last])) r rest → s.store.upload = some u →
    let expected := if u.expected = 74 then 0 else u.expected + 1
    let trips := u.trips + ts.length + 1
    exec (.tripBlockWriteEnd true) s = .next { s with
      flash := s.flash.setBank u.target { s.flash.bank u.target with
        trips := (s.flash.bank u.target).trips ++ ts ++ [last] }
      store := { s.store with upload := some { u with
        trips := trips, expected := expected, lastMinute := some last.minute
        check := crc16From u.check ((ts ++ [last]).flatMap Trip.bytes) } }
      link := s.link.answered r rest 0 s.faults.newsFlag (b8 expected ++ b16 trips) })

/-- R29, R33, R38, R40: a commit with no upload open is refused NO_UPLOAD; one whose count or check differs is refused MISMATCH with
both; one that agrees writes the VALID header, under the number that follows the other bank's or under 1, whose end makes the bank
VALID, closes the context, runs selection when the clock is RUNNING, and answers count and check. The board is rebuilt on the new
roles when another bank, or none, then holds CURRENT, and else stays as it is. -/
def Obligations.UploadCommitMakesTheBankValid : Prop :=
  (∀ (s : State) (r : Request) (rest : List Request), s.headIs r rest → r.kind = 0x08 → r.payload.length = 4 →
    s.store.upload = none →
    exec .uploadCommit s = .next { s with link := s.link.answered r rest 6 s.faults.newsFlag [] }) ∧
  (∀ (s : State) (r : Request) (rest : List Request) (c1 c0 k1 k0 : Byte) (u : Upload), s.headIs r rest →
    r.kind = 0x08 → r.payload = [c1, c0, k1, k0] → s.store.upload = some u →
    let touched : State := { s with timers := { s.timers with upload := s.timers.upload.start } }
    let agrees := c1.toNat * 256 + c0.toNat = u.trips ∧ k1.toNat * 256 + k0.toNat = u.check.toNat
    let other : StoredBank := match u.target with | .a => s.flash.bankB | .b => s.flash.bankA
    let number := match other.header with | .good (.valid _ _ _ m) => (m + 1) % 65536 | _ => 1
    (¬agrees → exec .uploadCommit s = .next { touched with
      link := s.link.answered r rest 12 s.faults.newsFlag (b16 u.trips ++ b16 u.check.toNat) }) ∧
    (agrees → exec .uploadCommit s = .next { touched with
      link := { s.link with
        write := some (.commitHeader u.target u.date u.trips u.check number) } })) ∧
  (∀ (s : State) (i : BankId) (date count commit : Nat) (check : BitVec 16) (r : Request) (rest : List Request),
    s.writing (.commitHeader i date count check commit) r rest → s.attemptWaiting = false →
    let valid : Store := { s.store.setBank i ⟨.valid, date, count, check, commit, none⟩ with upload := none }
    ∃ (t : State) (news : Bool) (board : Board), exec (.commitHeaderWriteEnd true) s = .next t ∧
      PanelWork { s with
        flash := s.flash.setBank i { s.flash.bank i with header := .good (.valid date count check commit) }
        store := (match s.clock.time with | none => valid | some u => valid.select u.date)
        timers := { s.timers with upload := s.timers.upload.stop }
        board := board
        link := s.link.answered r rest 0 news (b16 count ++ b16 check.toNat) } t ∧
      (t.store.holder .current = s.store.holder .current → board = s.board) ∧
      (t.store.holder .current ≠ s.store.holder .current →
        board = (State.rebuild { s with flash := t.flash, store := t.store }).board ∧ board.gone = []))

/-- R39, R42: with no upload open UPLOAD_ABORT is refused NO_UPLOAD; with one open the target becomes FREE, the context closes and
the idle timer stops, no flash is written, OK is answered at once, and no fault or news is added; a stored FILLING header reads as
FREE at the start-up check, with no fault. The date, count, check and commit number of a FREE record are the model's
(notes/assumptions/16.md). -/
def Obligations.UploadAbortFreesTheTarget : Prop :=
  (∀ (s : State) (r : Request) (rest : List Request), s.headIs r rest → r.kind = 0x09 → r.payload = [] →
    (s.store.upload = none →
      exec .uploadAbort s = .next { s with link := s.link.answered r rest 6 s.faults.newsFlag [] }) ∧
    (∀ u, s.store.upload = some u →
      exec .uploadAbort s = .next { s with
        store := { s.store.setBank u.target { s.store.bank u.target with state := .free, role := none } with
          upload := none }
        timers := { s.timers with upload := s.timers.upload.stop }
        link := s.link.answered r rest 0 s.faults.newsFlag [] })) ∧
  (∀ (b : StoredBank) (date count : Nat) (check : BitVec 16) (commit : Nat),
    b.header = .good (.filling date count check commit) → b.checked = (.freeRecord, false))

/-- R40, R67: the idle timeout of an open upload, when the timer's count has reached zero, aborts it, raises TIMETABLE/602 and adds
"upload timed out", during a write of another request too. During an upload request's own write it does not arise
(notes/assumptions/31.md). -/
def Obligations.IdleTimeoutAbortsTheUpload : Prop :=
  let ofUpload (w : FlashWrite) : Prop :=
    (∃ i d, w = .bankErase i d) ∨ (∃ i d, w = .fillingHeader i d) ∨ (∃ ts, w = .tripBlock ts) ∨
      ∃ i d n k m, w = .commitHeader i d n k m
  (∀ (s : State) (u : Upload), s.timers.upload.running = true → s.timers.upload.remaining = 0 →
    s.store.upload = some u → (∀ w, s.link.write = some w → ¬ofUpload w) →
    exec .uploadIdleTimeout s = .next { s with
      store := { s.store.setBank u.target { s.store.bank u.target with state := .free, role := none } with
        upload := none }
      timers := { s.timers with upload := s.timers.upload.stop }
      faults := { s.faults.raise .timetable602 s.clock.stamp with
        news := (s.faults.raise .timetable602 s.clock.stamp).news ||| 0x1000 } }) ∧
  (∀ (s : State) (w : FlashWrite), s.link.write = some w → ofUpload w → exec .uploadIdleTimeout s = .next s) ∧
  (∀ s : State, s.timers.upload.running = false ∨ s.timers.upload.remaining ≠ 0 → exec .uploadIdleTimeout s = .next s)

/-- R35, R41, R187: each upload write that fails verification is answered STORE_FAIL, TRIP_BLOCK's with the expected number 0 and no
trips so far and the others' with the header alone, and raises STORE/106; the target is FREE, the context CLOSED, and the idle timer
stopped, or not started by a failed UPLOAD_BEGIN. What the write leaves in flash is free (notes/assumptions/10.md). -/
def Obligations.FailedUploadWriteFreesTheTarget : Prop :=
  ∀ (s : State) (c : Instr) (w : FlashWrite) (i : BankId) (r : Request) (rest : List Request) (data : List Byte) (timers : Timers),
    s.writing w r rest →
    let stopped : Timers := { s.timers with upload := { s.timers.upload with remaining := 0, running := false } }
    ((∃ d, c = .bankEraseEnd false ∧ w = .bankErase i d ∧ s.store.upload = none ∧ data = [] ∧ timers = s.timers) ∨
      (∃ d, c = .fillingHeaderWriteEnd false ∧ w = .fillingHeader i d ∧ s.store.upload = none ∧ data = [] ∧
        timers = s.timers) ∨
      (∃ ts u, c = .tripBlockWriteEnd false ∧ w = .tripBlock ts ∧ s.store.upload = some u ∧ u.target = i ∧
        data = [0, 0, 0] ∧ timers = stopped) ∨
      (∃ d n k m u, c = .commitHeaderWriteEnd false ∧ w = .commitHeader i d n k m ∧ s.store.upload = some u ∧
        u.target = i ∧ data = [] ∧ timers = stopped)) →
    ∃ (t : State) (news : Bool), exec c s = .next t ∧
      t.link = s.link.answered r rest 15 news data ∧ t.timers = timers ∧
      t.store = { s.store.setBank i { s.store.bank i with state := .free, role := none } with upload := none } ∧
      t.faults = s.faults.raise .store106 s.clock.stamp ∧
      t.flash.bank i.other = s.flash.bank i.other ∧ t.flash.texts = s.flash.texts ∧ t.flash.glyphs = s.flash.glyphs ∧
      t.flash.config = s.flash.config ∧ t.presence = s.presence ∧ t.notices = s.notices ∧ t.composer = s.composer ∧
      t.board = s.board ∧ t.cfg = s.cfg ∧ t.clock = s.clock ∧ t.tiles = s.tiles ∧ t.drive = s.drive ∧ t.energy = s.energy ∧
      t.freeCount = s.freeCount + 1

/-! ### Settings -/

/-- R25, R58, R126, R127, R189: CONFIG_SET is refused RANGE, with the unchanged value of a known identifier, or starts the write; a
verified write puts the new value in force and in flash and answers it; a failed one leaves everything in force and answers
STORE_FAIL, and a record that it leaves passing its check holds the windows in force (R58). A new P04 takes the entries on platforms
outside the set off the board and keeps the gone list; a new P07 takes those below now − grace off as departures, and no other
parameter touches the board. A new P17 that is not above the old one marks exactly the tiles outside the job in hand whose ghost
count is at or above it clear-due, and queues the full clean over the threshold; a raised one marks none. That a P17 equal to the
old one acts so is the model's reading of a lowering (notes/assumptions/27.md), and that a failed write never leaves the record as
never written is the model's choice (notes/assumptions/10.md). -/
def Obligations.ConfigSetChangesOneParameter : Prop :=
  (∀ (s : State) (r : Request) (rest : List Request) (id v3 v2 v1 v0 : Byte), s.headIs r rest → r.kind = 0x03 →
    r.payload = [id, v3, v2, v1, v0] →
    let value := ((v3.toNat * 256 + v2.toNat) * 256 + v1.toNat) * 256 + v0.toNat
    (id.toNat = 0 ∨ 43 < id.toNat →
      exec .configSet s = .next { s with link := s.link.answered r rest 4 s.faults.newsFlag [] }) ∧
    (1 ≤ id.toNat → id.toNat ≤ 43 → paramInRange id.toNat value = false →
      exec .configSet s = .next { s with
        link := s.link.answered r rest 4 s.faults.newsFlag ([id] ++ b32 (s.cfg.param id.toNat)) }) ∧
    (1 ≤ id.toNat → id.toNat ≤ 43 → paramInRange id.toNat value = true →
      exec .configSet s = .next { s with
        link := { s.link with write := some (.config id.toNat (BitVec.ofNat 32 value)) } })) ∧
  (∀ (s : State) (id : Nat) (value : BitVec 32) (r : Request) (rest : List Request),
    s.writing (.config id value) r rest → s.attemptWaiting = false → 1 ≤ id → id ≤ 43 →
    (∃ (t : State) (news : Bool), exec (.configWriteEnd true) s = .next t ∧
      t.cfg.param id = value.toNat ∧ (∀ k, 1 ≤ k → k ≠ id → t.cfg.param k = s.cfg.param k) ∧
      t.cfg.windows = s.cfg.windows ∧ t.flash = { s.flash with config := .good t.cfg } ∧
      t.link = s.link.answered r rest 0 news (b8 id ++ b32 value.toNat) ∧
      t.clock = s.clock ∧ t.store = s.store ∧ t.notices = s.notices ∧ t.presence = s.presence ∧
      (id ≠ 4 → id ≠ 7 → t.board = s.board) ∧
      (id = 4 → t.board = ⟨s.board.entries.filter fun e => value.toNat.testBit e.platform, s.board.gone⟩) ∧
      (id = 7 → ∀ u, s.clock.time = some u →
        let low : Int := (u.second : Int) - value.toNat
        t.board.entries = (s.board.entries.filter fun e => decide (low ≤ e.effective)) ∧
        (s.board.gone.length ≤ 32 →
          GoneJoined s.board.gone (s.board.entries.filter fun e => decide (e.effective < low)) low value.toNat t.board.gone)) ∧
      (id = 17 → s.sizeDiffers = false →
        let hand := (s.tiles.jobs.find? Job.inHand).map (·.num)
        t.tiles.tiles.length = s.tiles.tiles.length ∧
        (∀ (i : Nat) (a b : Tile), s.tiles.tiles[i]? = some a → t.tiles.tiles[i]? = some b →
          b.shown = a.shown ∧ b.wanted = a.wanted ∧ b.ghost = a.ghost ∧
          (b.clearDue = true ↔ a.clearDue = true ∨
            (value.toNat ≤ s.cfg.param 17 ∧ value.toNat ≤ a.ghost ∧ (a.job = none ∨ a.job ≠ hand)))) ∧
        (value.toNat ≤ s.cfg.param 17 → s.tiles.wt * s.tiles.ht < 4 * t.tiles.tiles.countP (·.clearDue) →
          t.tiles.hasClean = true))) ∧
    (∃ (t : State) (news : Bool), exec (.configWriteEnd false) s = .next t ∧
      t.cfg = s.cfg ∧ t.link = s.link.answered r rest 15 news (b8 id ++ b32 (s.cfg.param id)) ∧
      t.faults = s.faults.raise .store106 s.clock.stamp ∧ t.board = s.board ∧ t.tiles = s.tiles ∧
      t.drive = s.drive ∧ t.timers = s.timers ∧ t.energy = s.energy ∧ t.clock = s.clock ∧ t.store = s.store ∧
      t.flash.bankA = s.flash.bankA ∧ t.flash.bankB = s.flash.bankB ∧ t.flash.texts = s.flash.texts ∧
      t.flash.glyphs = s.flash.glyphs ∧ t.flash.config ≠ .erased ∧
      (∀ x, t.flash.config = .good x → x.windows = s.cfg.windows)))

/-- R55, R190: CONFIG_GET answers a parameter's value in force, or a window's settings, a platform of 255 standing for KEEP and for
the assignment that an exclusion window does not have, or RANGE alone, and changes nothing. -/
def Obligations.ConfigGetReportsTheValue : Prop :=
  ∀ (s : State) (r : Request) (rest : List Request) (id : Byte), s.headIs r rest → r.kind = 0x04 → r.payload = [id] →
    let answered (code : Nat) (data : List Byte) : State :=
      { s with link := s.link.answered r rest code s.faults.newsFlag data }
    (1 ≤ id.toNat → id.toNat ≤ 43 →
      exec .configGet s = .next (answered 0 ([id] ++ b32 (s.cfg.param id.toNat)))) ∧
    (50 ≤ id.toNat → id.toNat ≤ 57 →
      let w := s.cfg.window (id.toNat - 50)
      exec .configGet s = .next (answered 0 ([id, id - 50, if w.enabled then 1 else 0] ++ b16 w.base.toNat ++
        b16 w.mask.toNat ++ b8 (if id.toNat ≤ 55 then w.platform.getD 255 else 255)))) ∧
    (id.toNat = 0 ∨ (43 < id.toNat ∧ id.toNat < 50) ∨ 57 < id.toNat →
      exec .configGet s = .next (answered 4 []))

/-- R55, R56, R58, R187: WINDOW_SET is refused RANGE, with the unchanged settings of a known window, or starts the write; a verified
write puts that window's settings in force and in flash, and a failed one leaves everything in force and is answered STORE_FAIL with
the header alone, since chapter 03 names no data for it (notes/assumptions/24.md), and never leaves the record as never written,
which is the model's choice (notes/assumptions/10.md). A record that it leaves passing its check holds the windows in force before
it, the last ones verified (R58). Settings are reported in 7 bytes, the platform as 255 for KEEP and, whatever they hold, for an
exclusion window. -/
def Obligations.WindowSetChangesOneWindow : Prop :=
  (∀ (s : State) (r : Request) (rest : List Request) (i e b1 b0 m1 m0 p : Byte), s.headIs r rest → r.kind = 0x05 →
    r.payload = [i, e, b1, b0, m1, m0, p] →
    let good := i.toNat ≤ 7 ∧ e.toNat ≤ 1 ∧ (i.toNat ≤ 5 → p.toNat ≤ 7 ∨ p.toNat = 255)
    (good → exec .windowSet s = .next { s with link := { s.link with write := some (.window i.toNat
      ⟨decide (e.toNat = 1), BitVec.ofNat 16 (b1.toNat * 256 + b0.toNat), BitVec.ofNat 16 (m1.toNat * 256 + m0.toNat),
        if i.toNat ≤ 5 ∧ p.toNat ≤ 7 then some p.toNat else none⟩) } }) ∧
    (¬good → i.toNat ≤ 7 → exec .windowSet s = .next { s with
      link := s.link.answered r rest 4 s.faults.newsFlag ((s.cfg.window i.toNat).bytes i.toNat) }) ∧
    (7 < i.toNat → exec .windowSet s = .next { s with
      link := s.link.answered r rest 4 s.faults.newsFlag [] })) ∧
  (∀ (s : State) (i : Nat) (w : Window) (r : Request) (rest : List Request), s.writing (.window i w) r rest → i ≤ 7 →
    (∃ c : ConfigRecord, exec (.windowWriteEnd true) s = .next { s with
        cfg := c
        flash := { s.flash with config := .good c }
        link := s.link.answered r rest 0 s.faults.newsFlag (w.bytes i) } ∧
      c.window i = w ∧ (∀ k, k ≠ i → c.window k = s.cfg.window k) ∧ c.params = s.cfg.params) ∧
    (∃ (t : State) (news : Bool), exec (.windowWriteEnd false) s = .next t ∧ t.cfg = s.cfg ∧
      t.link = s.link.answered r rest 15 news [] ∧
      t.faults = s.faults.raise .store106 s.clock.stamp ∧ t.board = s.board ∧ t.tiles = s.tiles ∧
      t.flash.bankA = s.flash.bankA ∧ t.flash.bankB = s.flash.bankB ∧ t.flash.config ≠ .erased ∧
      (∀ x, t.flash.config = .good x → x.windows = s.cfg.windows))) ∧
  (∀ (i : Nat) (w : Window), w.bytes i = b8 i ++ [if w.enabled then 1 else 0] ++ b16 w.base.toNat ++ b16 w.mask.toNat ++
    [if 5 < i then 255 else match w.platform with | none => 255 | some p => BitVec.ofNat 8 p])

/-! ### Text and glyph tables -/

/-- R87, R96, R97, R99, R103: TEXT_PUT is refused RANGE or starts the write; a verified write makes the entry present with its list
and leaves every other entry; a failed one makes it absent, raises STORE/106 once, and answers the same data. Either recomposes
every band, so that every tile wants its image, and raises CONTENT faults alone beside it. -/
def Obligations.TextPutReplacesOneEntry : Prop :=
  (∀ (s : State) (r : Request) (rest : List Request), s.headIs r rest → r.kind = 0x0D →
    lengthAllowed 0x0D r.payload.length = true →
    (textInRange (textOf r.payload) = false →
      exec .textPut s = .next { s with link := s.link.answered r rest 4 s.faults.newsFlag [] }) ∧
    (textInRange (textOf r.payload) = true →
      exec .textPut s = .next { s with
        link := { s.link with write := some (.text (u8 r.payload 0) (textOf r.payload)) } })) ∧
  (∀ (s : State) (id : Nat) (codes : List Nat) (r : Request) (rest : List Request),
    s.writing (.text id codes) r rest → s.attemptWaiting = false →
    let drawn (t : State) : Prop := s.imageSound → s.configSound → s.glyphsSound → s.sizeDiffers = false →
      ∀ i, i < s.tiles.wt * s.tiles.ht → t.wantsItsImage i
    let raises (t : State) (codes : List FaultCode) : Prop :=
      t.faults = codes.foldl (fun f c => f.raise c s.clock.stamp) s.faults
    (∃ (t : State) (news : Bool) (raised : List FaultCode), exec (.textWriteEnd true) s = .next t ∧ drawn t ∧
      raises t raised ∧ (∀ c ∈ raised, c.cls = .content) ∧
      PanelWork { s with
        flash := t.flash, presence := t.presence
        link := s.link.answered r rest 0 news (b8 id ++ b8 codes.length) } t ∧
      tableRead t.flash.texts id = .good codes ∧ (∀ k, k ≠ id → tableRead t.flash.texts k = tableRead s.flash.texts k) ∧
      t.flash = { s.flash with texts := t.flash.texts } ∧
      id ∈ t.presence.texts ∧ (∀ k, k ≠ id → (k ∈ t.presence.texts ↔ k ∈ s.presence.texts)) ∧
      t.presence.glyphs = s.presence.glyphs) ∧
    (∃ (t : State) (news : Bool) (raised : List FaultCode), exec (.textWriteEnd false) s = .next t ∧ drawn t ∧
      raises t raised ∧ (∀ c ∈ raised, c.cls = .content ∨ c = .store106) ∧ raised.count .store106 = 1 ∧
      PanelWork { s with
        flash := t.flash, presence := t.presence, freeCount := s.freeCount + 1
        link := s.link.answered r rest 15 news (b8 id ++ b8 codes.length) } t ∧
      t.faults.isLatched .store = true ∧ (∀ k, k ≠ id → tableRead t.flash.texts k = tableRead s.flash.texts k) ∧
      t.flash = { s.flash with texts := t.flash.texts } ∧
      id ∉ t.presence.texts ∧ (∀ k, k ≠ id → (k ∈ t.presence.texts ↔ k ∈ s.presence.texts)) ∧
      t.presence.glyphs = s.presence.glyphs))

/-- R87, R96, R98, R99, R103: GLYPH_PUT, as TEXT_PUT; a glyph is answered with its code and width. -/
def Obligations.GlyphPutReplacesOneEntry : Prop :=
  (∀ (s : State) (r : Request) (rest : List Request), s.headIs r rest → r.kind = 0x0E →
    lengthAllowed 0x0E r.payload.length = true →
    (glyphInRange r.payload = false →
      exec .glyphPut s = .next { s with link := s.link.answered r rest 4 s.faults.newsFlag [] }) ∧
    (glyphInRange r.payload = true →
      exec .glyphPut s = .next { s with
        link := { s.link with write := some (.glyph (u16 r.payload 0) (glyphOf r.payload)) } })) ∧
  (∀ (s : State) (code : Nat) (g : Glyph) (r : Request) (rest : List Request),
    s.writing (.glyph code g) r rest → s.attemptWaiting = false →
    let drawn (t : State) : Prop := s.imageSound → s.configSound → s.glyphsSound → s.sizeDiffers = false →
      ∀ i, i < s.tiles.wt * s.tiles.ht → t.wantsItsImage i
    let raises (t : State) (codes : List FaultCode) : Prop :=
      t.faults = codes.foldl (fun f c => f.raise c s.clock.stamp) s.faults
    (∃ (t : State) (news : Bool) (raised : List FaultCode), exec (.glyphWriteEnd true) s = .next t ∧ drawn t ∧
      raises t raised ∧ (∀ c ∈ raised, c.cls = .content) ∧
      PanelWork { s with
        flash := t.flash, presence := t.presence
        link := s.link.answered r rest 0 news (b16 code ++ b8 g.width) } t ∧
      tableRead t.flash.glyphs code = .good g ∧
      (∀ k, k ≠ code → tableRead t.flash.glyphs k = tableRead s.flash.glyphs k) ∧
      t.flash = { s.flash with glyphs := t.flash.glyphs } ∧
      code ∈ t.presence.glyphs ∧ (∀ k, k ≠ code → (k ∈ t.presence.glyphs ↔ k ∈ s.presence.glyphs)) ∧
      t.presence.texts = s.presence.texts) ∧
    (∃ (t : State) (news : Bool) (raised : List FaultCode), exec (.glyphWriteEnd false) s = .next t ∧ drawn t ∧
      raises t raised ∧ (∀ c ∈ raised, c.cls = .content ∨ c = .store106) ∧ raised.count .store106 = 1 ∧
      PanelWork { s with
        flash := t.flash, presence := t.presence, freeCount := s.freeCount + 1
        link := s.link.answered r rest 15 news (b16 code ++ b8 g.width) } t ∧
      t.faults.isLatched .store = true ∧ (∀ k, k ≠ code → tableRead t.flash.glyphs k = tableRead s.flash.glyphs k) ∧
      t.flash = { s.flash with glyphs := t.flash.glyphs } ∧
      code ∉ t.presence.glyphs ∧ (∀ k, k ≠ code → (k ∈ t.presence.glyphs ↔ k ∈ s.presence.glyphs)) ∧
      t.presence.texts = s.presence.texts))

/-! ### Resets -/

/-- R42, R71, R92, R96, R100, R134, R136, R143, R144, R153, R155, R161, R162, R174, R182, R193, R194: a power-on reset with the
RESET line high, and the release of the line of a part held in reset, run start-up up to the identity exchange: the cause and the
straps are recorded, the configuration record, the banks and the tables are read with their faults, the comparator and the first
sample are taken, three timers run and four do not, and nothing of the clock, the board, the notices, the requests and the Panel
Drive is left. The first sample decides the conserve state, with its news and SUPPLY/801 (R153), and every fault of start-up is
raised just where it is due. Row 1 is the time-unknown message, every other row EMPTY, and every tile wants its image (R92). The
model's choices in it: the stop at the exchange (notes/assumptions/6.md), the clock phase 0 (18), no sent image (19) and a frame
count of 0 (39) where the spec gives none, a bank record read as FREE (16), the CRC over all stored records (45), a power-on reset
of a part that has power (40), the TEMP fault of the first sample, which R182 and R194 do not list and R137 and R162 are read to
give (20), and the supply level: the comparator as read, then compared at the first sample before it is taken, a voltage equal to
P20 leaving it as it is (29). -/
def Obligations.ResetsRunStartUp : Prop :=
  ∀ (s : State) (c : Instr) (br1 br0 above : Bool) (mv celsius : Int) (cause : ResetCause),
    (c = .powerOnReset br1 br0 above mv celsius ∧ s.lineLow = false ∧ cause = .power) ∨
      (c = .lineResetRelease br1 br0 above mv celsius ∧ s.phase = .held ∧ cause = .line) →
    ∃ t, exec c s = .next t ∧ t.phase = .startUp ∧ t.lineLow = false ∧ t.faults.cause = cause ∧
      t.link = ⟨.hunt, [], none, none, [], br1, br0⟩ ∧ (s.link.write = none → t.flash = s.flash) ∧
      t.clock = ⟨none, 0⟩ ∧ t.board = ⟨[], []⟩ ∧ t.notices = ⟨[], none⟩ ∧ t.store.upload = none ∧
      t.store.bankA.role = none ∧ t.store.bankB.role = none ∧ t.store.reuse = false ∧
      (t.flash.config = .erased → t.cfg = Config.defaults) ∧
      (∀ x, t.flash.config = .good x → x.inRange = true → t.cfg = x) ∧
      (t.flash.config = .bad ∨ (∃ x, t.flash.config = .good x ∧ x.inRange = false) →
        t.cfg = Config.defaults ∧ t.faults.isLatched .store = true ∧ t.faults.first = some ⟨.store101, none⟩) ∧
      (∀ i,
        let stored := t.flash.bank i
        let found := t.store.bank i
        let free : BankRecord := ⟨.free, 0, 0, 0, 0, none⟩
        (stored.header = .erased ∨ (∃ d n k m, stored.header = .good (.filling d n k m)) → found = free) ∧
        (stored.header = .bad → found = free ∧ t.faults.isLatched .store = true) ∧
        (∀ d n k m, stored.header = .good (.valid d n k m) →
          (n ≤ 1200 ∧ crc16 (stored.trips.flatMap Trip.bytes) = k → found = ⟨.valid, d, n, k, m, none⟩) ∧
          (¬(n ≤ 1200 ∧ crc16 (stored.trips.flatMap Trip.bytes) = k) →
            found = free ∧ t.faults.isLatched .store = true))) ∧
      (t.flash.sound →
        (∀ k, k ∈ t.presence.texts ↔ ∃ x, tableRead t.flash.texts k = .good x ∧ textInRange x = true) ∧
        (∀ k, k ∈ t.presence.glyphs ↔ ∃ x, tableRead t.flash.glyphs k = .good x ∧ x.inRange = true) ∧
        ((∃ k, tableRead t.flash.texts k ≠ .erased ∧ k ∉ t.presence.texts) ∨
            (∃ k, tableRead t.flash.glyphs k ≠ .erased ∧ k ∉ t.presence.glyphs) →
          t.faults.isLatched .store = true)) ∧
      t.tiles.wt = t.cfg.param 1 ∧ t.tiles.ht = t.cfg.param 2 ∧ t.tiles.elapsed = 0 ∧
      (∀ x ∈ t.tiles.tiles, x.shown = none ∧ x.ghost = 0 ∧ x.clearDue = false) ∧
      t.energy.vs = some (max 0 (min 5500 mv)).toNat ∧ t.energy.temp = some (max (-40) (min 85 celsius)) ∧
      t.energy.estimate = usableEnergy (t.cfg.param 19) (t.cfg.param 20) (max 0 (min 5500 mv)).toNat ∧
      t.energy.window = false ∧ t.energy.duty = 0 ∧
      (let vs := (max 0 (min 5500 mv)).toNat
       let temp := max (-40) (min 85 celsius)
       let low := vs < ([2100, 2300, 2500, 2700, 2900, 3100, 3400, 3700] : List Nat).getD (t.cfg.param 21) 3700
       let failsConfig := t.flash.config = .bad ∨ ∃ x, t.flash.config = .good x ∧ x.inRange = false
       let failsBank (i : BankId) : Prop := (t.flash.bank i).header = .bad ∨
         ∃ d n k m, (t.flash.bank i).header = .good (.valid d n k m) ∧
           ¬(n ≤ 1200 ∧ crc16 ((t.flash.bank i).trips.flatMap Trip.bytes) = k)
       let failing {α : Type} (inRange : α → Bool) (l : List (Nat × Item α)) : Nat :=
         (l.filter fun x => match x.2 with | .erased => false | .bad => true | .good a => !inRange a).length
       t.energy.conserve = decide low ∧ t.energy.lowFlag = decide low ∧
       ∃ codes : List FaultCode,
         t.faults = codes.foldl (fun f c => f.raise c none) ⟨0, none, none, 0, if low then 0x0200 else 0, cause⟩ ∧
         (∀ c ∈ codes, c.cls = .content ∨ c ∈ [FaultCode.store101, .store102, .store103, .store104, .store105, .supply801,
           .temp401, .temp402]) ∧
         (failsConfig → codes.count .store101 = 1) ∧ (¬failsConfig → codes.count .store101 = 0) ∧
         (failsBank .a → codes.count .store102 = 1) ∧ (¬failsBank .a → codes.count .store102 = 0) ∧
         (failsBank .b → codes.count .store103 = 1) ∧ (¬failsBank .b → codes.count .store103 = 0) ∧
         codes.count .store104 = failing textInRange t.flash.texts ∧
         codes.count .store105 = failing Glyph.inRange t.flash.glyphs ∧
         codes.count .supply801 = (if low then 1 else 0) ∧
         codes.count .temp401 = (if temp < -10 then 1 else 0) ∧ codes.count .temp402 = (if 55 < temp then 1 else 0)) ∧
      t.composer.rows.length = t.tiles.ht - 2 ∧
      (∀ k x, t.composer.rows[k]? = some x → x = if k = 0 then .message .timeUnknown else .empty) ∧
      (t.flash.sound → ∀ i, i < t.tiles.wt * t.tiles.ht → t.wantsItsImage i) ∧
      t.drive = ⟨.off, false, none, 0, 0, 0, if mv = t.cfg.param 20 then above else decide ((t.cfg.param 20 : Int) < mv),
        false, false, some .startUp, [], none⟩ ∧
      t.timers.sweep = ⟨10, 10, .periodic, true⟩ ∧
      t.timers.sample = ⟨t.cfg.param 22, t.cfg.param 22, .periodic, true⟩ ∧
      t.timers.rotation = ⟨t.cfg.param 16 * 60, t.cfg.param 16 * 60, .periodic, true⟩ ∧
      t.timers.linger.running = false ∧ t.timers.upload.running = false ∧ t.timers.rise.running = false ∧
      t.timers.retry.running = false

/-- R41, R56, R99, R168, R193: a power loss, the fall of the RESET line of a part with power, and the return of power while the line
is low, lose every block's state at once; flash is kept, but for the item whose write they cut; without power the line only stands
low or high. The model's choices in it: that the state is lost at the fall of the line, and what the line does without power
(notes/assumptions/37.md), what each cut write leaves (11 and 14), and, until start-up sets them, both straps low (19), two FREE
bank records of zeros (16), empty presence maps (60), and the default configuration in force with its geometry of 16 by 9 (64), for
which the spec gives no value. -/
def Obligations.PowerLossAndLineResetLoseTheState : Prop :=
  (∀ (s : State) (c : Instr) (phase : Phase) (cause : ResetCause) (low : Bool),
    (c = .powerLoss ∧ phase = .off ∧ cause = .power ∧ low = s.lineLow) ∨
      (c = .lineResetAssert ∧ s.phase ≠ .off ∧ phase = .held ∧ cause = .line ∧ low = true) ∨
      (∃ br1 br0 above mv celsius, c = .powerOnReset br1 br0 above mv celsius ∧ s.lineLow = true ∧ phase = .held ∧
        cause = .power ∧ low = true) →
    ∃ (flash : Flash) (n : Nat),
      exec c s = .next { State.cleared flash phase cause with
        lineLow := low, freeCount := n, schedule := s.schedule, pending := s.pending } ∧
      (s.link.write = none → flash = s.flash) ∧
      (∀ id v, s.link.write = some (.config id v) → flash = { s.flash with config := .bad }) ∧
      (∀ i w, s.link.write = some (.window i w) → flash = { s.flash with config := .bad }) ∧
      (∀ i d, s.link.write = some (.bankErase i d) → ∃ ts, flash = s.flash.setBank i ⟨.bad, ts⟩) ∧
      (∀ i d, s.link.write = some (.fillingHeader i d) →
        flash = s.flash.setBank i { s.flash.bank i with header := .bad }) ∧
      (∀ ts u, s.link.write = some (.tripBlock ts) → s.store.upload = some u →
        ∃ left, flash = s.flash.setBank u.target { s.flash.bank u.target with trips := left }) ∧
      (∀ i d n k m, s.link.write = some (.commitHeader i d n k m) →
        flash = s.flash.setBank i { s.flash.bank i with header := .bad }) ∧
      (∀ id codes, s.link.write = some (.text id codes) →
        ∃ x, (x = .erased ∨ x = .bad) ∧ flash = { s.flash with texts := tableWrite s.flash.texts id x }) ∧
      (∀ code g, s.link.write = some (.glyph code g) →
        ∃ x, (x = .erased ∨ x = .bad) ∧ flash = { s.flash with glyphs := tableWrite s.flash.glyphs code x })) ∧
  (∀ (flash : Flash) (phase : Phase) (cause : ResetCause),
    let t := State.cleared flash phase cause
    t.phase = phase ∧ t.flash = flash ∧ (phase = .off ∨ phase = .held → t.powered = false) ∧ t.attn = false ∧
      t.link = ⟨.hunt, [], none, none, [], false, false⟩ ∧ t.presence = ⟨[], []⟩ ∧
      t.store = ⟨.freeRecord, .freeRecord, false, none⟩ ∧ t.resetRoles = ⟨none, none⟩ ∧ t.cfg = Config.defaults ∧
      t.tiles.wt = 16 ∧ t.tiles.ht = 9 ∧ t.tiles.tiles.length = 144 ∧ t.composer.rows.length = 7 ∧ t.clock.time = none ∧ t.board = ⟨[], []⟩ ∧
      t.notices = ⟨[], none⟩ ∧ t.tiles.jobs = [] ∧ t.tiles.elapsed = 0 ∧
      (∀ x ∈ t.tiles.tiles, x = ⟨none, none, 0, false, none⟩) ∧ (∀ x ∈ t.composer.rows, x = .empty) ∧
      (∀ x ∈ t.composer.pixels, x = none) ∧ t.energy = ⟨none, none, 0, false, false, false, 0⟩ ∧
      t.drive.booster = .off ∧ t.drive.ben = false ∧ t.drive.granted = none ∧ t.drive.cutFrame = false ∧
      t.drive.exchange = none ∧ t.drive.held = [] ∧
      t.faults = ⟨0, none, none, 0, 0, cause⟩ ∧
      (t.timers.sweep.running = false ∧ t.timers.sample.running = false ∧ t.timers.rotation.running = false ∧
        t.timers.linger.running = false ∧ t.timers.upload.running = false ∧ t.timers.rise.running = false ∧
        t.timers.retry.running = false)) ∧
  (∀ s : State,
    (s.phase = .off → exec .lineResetAssert s = .next { s with lineLow := true }) ∧
    (∀ br1 br0 above mv celsius, s.phase ≠ .held →
      exec (.lineResetRelease br1 br0 above mv celsius) s = .next { s with lineLow := false }))

/-- R9, R10, R27, R43, R70, R71, R93, R115, R135, R144, R154, R167, R182, R192: a request reset discards the waiting requests,
clears the faults and news of before, the notices and the low flag, aborts an upload and frees its bank, rebuilds the board with
planned trips alone, drops every pending increase, empties the queue and forms it afresh, makes the span of a cut drive UNKNOWN and
clear-due, and keeps the clock, the configuration, the flash, the tables and the applied geometry; the cause is REQUEST, and only
the CONTENT faults that its own recompositions bring are recorded after it. The board is refilled from the banks that held the roles
when RESET was taken (R43), which R27's "at that moment" is read as (notes/assumptions/53.md). The model's choices in it: the whole
reset waits for an identity exchange (9), the replies up to RESET's have left the transmitter (30), the faults of before are cleared
before the rebuild, so that a CONTENT/503 of it stands (63), and the recompositions' CONTENT faults come before DRIVE/312 of a cut
frame, which is raised at that frame's end (62). -/
def Obligations.RequestResetClearsAndKeeps : Prop :=
  (∀ s : State, s.attemptWaiting = false →
    (s.link.resetAfter = none → exec .requestReset s = .next s) ∧
    (s.link.resetAfter ≠ none → s.drive.exchange ≠ none → .requestReset ∉ s.drive.held →
      exec .requestReset s = .next { s with drive := { s.drive with held := s.drive.held ++ [.requestReset] } })) ∧
  ∀ (s : State) (n : Nat), s.link.resetAfter = some n → s.drive.exchange = none → s.drive.held = [] →
    s.attemptWaiting = false → s.sizeDiffers = false →
    ∃ (t : State) (codes : List FaultCode), exec .requestReset s = .next t ∧ t.phase = s.phase ∧
      t.lineLow = s.lineLow ∧ t.link = { s.link with
        requests := [], write := none, resetAfter := none, replies := s.link.replies.drop n } ∧
      (∀ c ∈ codes, c.cls = .content) ∧
      t.faults = codes.foldl (fun f c => f.raise c s.clock.stamp) ⟨0, none, none, 0, 0, .request⟩ ∧
      t.notices = ⟨[], none⟩ ∧
      t.store = (match s.store.upload with
        | none => s.store
        | some u => { s.store.setBank u.target { s.store.bank u.target with state := .free, role := none } with
            upload := none }) ∧
      t.clock = s.clock ∧ t.cfg = s.cfg ∧ t.flash = s.flash ∧ t.presence = s.presence ∧
      t.resetRoles = ⟨none, none⟩ ∧ t.board = (s.rebuildFrom s.resetRoles).board ∧ t.board.gone = [] ∧
      (s.clock.time = none → t.board.entries = []) ∧
      (∀ u, s.clock.time = some u →
        let held (x : Role) : List Trip :=
          match (if x = .current then s.resetRoles.current else s.resetRoles.next) with
          | none => []
          | some .a => s.flash.bankA.trips
          | some .b => s.flash.bankB.trips
        let offered (x : Role) (p : Trip) : Prop := p ∈ held x ∧ (u.second : Int) - s.cfg.param 7 ≤ p.sched x ∧
          p.sched x ≤ u.second + s.cfg.param 6 * 60 ∧ (s.cfg.param 4).testBit p.platform = true
        (∀ e ∈ t.board.entries, ∃ x p, offered x p ∧
          e = ⟨p.key, if x = .current then .current else .next, p.dest, p.platform, some (p.sched x), none, .planned⟩) ∧
        ((held .current).length + (held .next).length ≤ 32 → ∀ x p, offered x p → ∃ e ∈ t.board.entries, e.key = p.key)) ∧
      t.composer.rows.length = s.composer.rows.length ∧ (∀ x ∈ t.composer.rows, ∀ k v p, x ≠ .countdown k v p) ∧
      t.tiles.wt = s.tiles.wt ∧ t.tiles.ht = s.tiles.ht ∧ t.tiles.elapsed = s.tiles.elapsed ∧
      t.tiles.tiles.length = s.tiles.tiles.length ∧
      (∀ j ∈ t.tiles.jobs, j.enqueue = s.tiles.elapsed) ∧
      (s.tiles.hasClean = true → t.tiles.hasClean = true) ∧
      (∀ (i : Nat) (a b : Tile), s.tiles.tiles[i]? = some a → t.tiles.tiles[i]? = some b →
        b.ghost = a.ghost ∧
        (∀ j, s.tiles.jobs.find? (fun x => x.state == .driving) = some j → j.covers s.tiles.wt i = true →
          b.shown = none ∧ b.clearDue = true) ∧
        ((∀ j ∈ s.tiles.jobs, j.state = .driving → j.covers s.tiles.wt i = false) →
          b.shown = a.shown ∧ b.clearDue = a.clearDue)) ∧
      t.energy = { s.energy with lowFlag := false, estimate := t.energy.estimate } ∧
      t.energy.estimate ≤ s.energy.estimate ∧
      t.timers.sweep = s.timers.sweep.start ∧ t.timers.sample = s.timers.sample.start ∧
      t.timers.rotation = s.timers.rotation.start ∧ t.timers.upload = s.timers.upload.stop ∧
      (s.drive.booster = .driving → t.drive.booster = .driving ∧ t.drive.cutFrame = true) ∧
      (s.drive.booster = .rising → t.timers.retry.running = false)

end Statements
end

