-- ==== Sys2Proof/Laws/Frames.lean ====
section
/-! SUPPORT. What work towards the panel leaves alone: for each shared operation from a raised fault to a settled step, one lemma
that says once that nothing else changed. -/

namespace Sys2Proof.Machine

theorem PanelWork.refl (s : State) : PanelWork s s := by constructor <;> rfl

theorem PanelWork.trans {s t u : State} (h : PanelWork s t) (k : PanelWork t u) : PanelWork s u where
  phase := k.phase.trans h.phase
  lineLow := k.lineLow.trans h.lineLow
  link := k.link.trans h.link
  flash := k.flash.trans h.flash
  presence := k.presence.trans h.presence
  cfg := k.cfg.trans h.cfg
  store := k.store.trans h.store
  resetRoles := k.resetRoles.trans h.resetRoles
  clock := k.clock.trans h.clock
  board := k.board.trans h.board
  notices := k.notices.trans h.notices
  energy := by rw [k.energy, h.energy]
  timers := by rw [k.timers, h.timers]
  supply := k.supply.trans h.supply
  held := k.held.trans h.held
  cause := k.cause.trans h.cause
  elapsed := k.elapsed.trans h.elapsed
  freeCount := k.freeCount.trans h.freeCount
  pending := k.pending.trans h.pending

theorem raise_panelWork (s : State) (c : FaultCode) : PanelWork s (s.raise c) := by constructor <;> rfl

theorem raiseAll_panelWork (cs : List FaultCode) (s : State) : PanelWork s (s.raiseAll cs) := by
  induction cs generalizing s with
  | nil => exact .refl s
  | cons c cs ih => exact (raise_panelWork s c).trans (ih _)

/-- A new Tile Map with the same elapsed-second count. -/
theorem setTiles_panelWork (s : State) (tm : TileMap) (h : tm.elapsed = s.tiles.elapsed) : PanelWork s (s.setTiles tm) := by
  constructor <;> first | rfl | exact h

theorem evaluated_panelWork (s : State) (b : Bands) : PanelWork s (s.evaluated b) := by
  unfold State.evaluated
  split
  · constructor <;> rfl
  · exact .refl s

theorem keepWritten_panelWork (s : State) (t : List Tile) (p : List (Option TilePixels)) :
    PanelWork s (s.keepWritten t p) := by constructor <;> rfl

theorem compose_panelWork (s : State) (b : Bands) : PanelWork s (s.compose b).1 :=
  (evaluated_panelWork s b).trans ((raiseAll_panelWork _ _).trans (keepWritten_panelWork _ _ _))

/-! ### The Tile Map keeps its elapsed-second count -/

@[simp] theorem removeJobs_elapsed (tm : TileMap) (p : Job → Bool) : (tm.removeJobs p).elapsed = tm.elapsed := rfl
@[simp] theorem queueSpan_elapsed (tm : TileMap) (b : JobClass) (o : List Job) (r f l : Nat) :
    (tm.queueSpan b o r f l).elapsed = tm.elapsed := rfl
@[simp] theorem changeJob_elapsed (tm : TileMap) (n : Nat) (f : Job → Job) : (tm.changeJob n f).elapsed = tm.elapsed := rfl

@[simp] theorem queueSpans_elapsed (b : JobClass) (o : List Job) (r : Nat) (l : List (Nat × Nat)) (tm : TileMap) :
    (TileMap.queueSpans b o r tm l).elapsed = tm.elapsed := by
  induction l generalizing tm with
  | nil => rfl
  | cons x l ih =>
    unfold TileMap.queueSpans
    split
    · rw [ih]; rfl
    · rfl

@[simp] theorem formRow_elapsed (tm : TileMap) (b : JobClass) (r : Nat) : (tm.formRow b r).1.elapsed = tm.elapsed := by
  unfold TileMap.formRow
  split <;> simp

@[simp] theorem formRows_elapsed (b : JobClass) (l : List Nat) (tm : TileMap) :
    (TileMap.formRows b tm l).1.elapsed = tm.elapsed := by
  induction l generalizing tm with
  | nil => rfl
  | cons r l ih => simp [TileMap.formRows, ih]

@[simp] theorem queueClean_elapsed (tm : TileMap) : tm.queueClean.1.elapsed = tm.elapsed := by
  unfold TileMap.queueClean
  split <;> rfl

@[simp] theorem testThreshold_elapsed (tm : TileMap) : tm.testThreshold.1.elapsed = tm.elapsed := by
  unfold TileMap.testThreshold
  split <;> simp

@[simp] theorem startJob_elapsed (tm : TileMap) (n : Nat) : (tm.startJob n).elapsed = tm.elapsed := rfl
@[simp] theorem rebuilt_elapsed (tm : TileMap) (w h n : Nat) : (tm.rebuilt w h n).elapsed = tm.elapsed := rfl

@[simp] theorem afterJob_elapsed (tm : TileMap) (b : JobClass) (j : Job) (d : Bool) :
    (tm.afterJob b j d).1.elapsed = tm.elapsed := by
  unfold TileMap.afterJob
  simp only [formRows_elapsed]
  split <;> simp

@[simp] theorem completeJob_elapsed (tm : TileMap) (b : JobClass) (n l : Nat) (d : Bool) :
    (tm.completeJob b n l d).elapsed = tm.elapsed := by
  unfold TileMap.completeJob
  split <;> simp

@[simp] theorem abortJob_elapsed (tm : TileMap) (b : JobClass) (n : Nat) (d : Bool) :
    (tm.abortJob b n d).elapsed = tm.elapsed := by
  unfold TileMap.abortJob
  split <;> simp

@[simp] theorem returnJob_elapsed (tm : TileMap) (b : JobClass) (n : Nat) : (tm.returnJob b n).elapsed = tm.elapsed := by
  unfold TileMap.returnJob
  split
  · rfl
  · split <;> simp

@[simp] theorem newLimit_elapsed (tm : TileMap) (b : JobClass) (o n : Nat) : (tm.newLimit b o n).1.elapsed = tm.elapsed := by
  unfold TileMap.newLimit
  split <;> simp [TileMap.markGhosts]

@[simp] theorem requestReset_elapsed (tm : TileMap) (b : JobClass) : (tm.requestReset b).1.elapsed = tm.elapsed := by
  unfold TileMap.requestReset
  simp only [formRows_elapsed, testThreshold_elapsed]
  split <;> simp

/-! ### Grants -/

theorem startRise_panelWork (s : State) : PanelWork s s.startRise := by constructor <;> rfl

theorem startDrive_panelWork (s : State) : PanelWork s s.startDrive := by
  unfold State.startDrive
  split
  · exact .refl s
  · constructor <;> rfl

theorem choose_panelWork (s : State) : PanelWork s s.choose.2 := by
  unfold State.choose
  split
  · exact .refl s
  · constructor <;> rfl

theorem meetOff_panelWork (s : State) : PanelWork s s.meetOff := by
  unfold State.meetOff
  split
  · exact startRise_panelWork s
  · exact .refl s

theorem lingerDown_panelWork (s : State) : PanelWork s s.lingerDown := by constructor <;> rfl

theorem meetReady_panelWork (s : State) : PanelWork s s.meetReady :=
  PanelWork.trans (by constructor <;> rfl) (startDrive_panelWork _)

/-- Everything that meeting the booster can be (R157, R160). -/
theorem meetBooster_cases (s : State) :
    s.meetBooster = s ∨ s.meetBooster = s.meetOff ∨ s.meetBooster = s.meetReady ∨
      s.meetBooster = s.choose.2.lingerDown.meetOff ∨ s.meetBooster = s.choose.2.meetReady := by
  unfold State.meetBooster
  split
  · exact .inr (.inl rfl)
  · split
    · split <;> simp
    · simp
  · exact .inl rfl
  · exact .inl rfl

/-- A linger timer that is not due leaves a grant its one way (R157). -/
theorem meetBooster_ready {s : State} (h : s.drive.booster = .ready) (k : s.timers.linger.due = false) :
    s.meetBooster = s.meetReady := by simp [State.meetBooster, h, k]

theorem meetBooster_panelWork (s : State) : PanelWork s s.meetBooster := by
  rcases meetBooster_cases s with h | h | h | h | h <;> rw [h]
  · exact .refl s
  · exact meetOff_panelWork s
  · exact meetReady_panelWork s
  · exact (choose_panelWork s).trans ((lingerDown_panelWork _).trans (meetOff_panelWork _))
  · exact (choose_panelWork s).trans (meetReady_panelWork _)

theorem formAll_panelWork (s : State) (l : List Nat) : PanelWork s (s.formAll l) :=
  setTiles_panelWork s _ (by simp)

theorem applySize_panelWork (s : State) (n : Nat) : PanelWork s (s.applySize n) := by
  unfold State.applySize
  split
  · exact PanelWork.trans (by constructor <;> rfl) ((compose_panelWork _ allBands).trans (formAll_panelWork _ _))
  · exact .refl s

theorem setDrive_panelWork (s : State) (d : Drive) (h : d.supplyAbove = s.drive.supplyAbove) (k : d.held = s.drive.held) :
    PanelWork s (s.setDrive d) := by
  constructor <;> first | rfl | exact h | exact k

theorem grant_panelWork (s : State) (j : Job) (b : Nat) : PanelWork s (s.grant j b) := by
  unfold State.grant
  split
  · refine PanelWork.trans ?_ (.trans (applySize_panelWork _ j.num) (setDrive_panelWork _ _ rfl rfl))
    constructor <;> rfl
  · exact PanelWork.trans (by constructor <;> rfl) (meetBooster_panelWork _)

theorem attempt_panelWork (s : State) : PanelWork s s.attempt := by
  unfold State.attempt
  split
  · exact .refl s
  · exact grant_panelWork s _ _

theorem noteAttempt_panelWork (s : State) : PanelWork s s.noteAttempt := by
  unfold State.noteAttempt
  split
  · exact (choose_panelWork s).trans (attempt_panelWork _)
  · exact (choose_panelWork s).trans (by constructor <;> rfl)

theorem settle_panelWork (s : State) : PanelWork s s.settle := by
  unfold State.settle
  split
  · exact PanelWork.trans (by constructor <;> rfl) (attempt_panelWork _)
  · exact .refl s

/-! ### Recomposition, cleans, tile work -/

theorem takeTiles_panelWork (s : State) (a : TileMap × Bool) (h : a.1.elapsed = s.tiles.elapsed) :
    PanelWork s (s.takeTiles a) := by
  unfold State.takeTiles
  split
  · exact (setTiles_panelWork s _ h).trans (noteAttempt_panelWork _)
  · exact setTiles_panelWork s _ h

theorem handOver_panelWork (s : State) (r : Nat) : PanelWork s (s.handOver r) :=
  takeTiles_panelWork s _ (formRow_elapsed _ _ _)

theorem handOverAll_panelWork (l : List Nat) (s : State) : PanelWork s (s.handOverAll l) := by
  induction l generalizing s with
  | nil => exact .refl s
  | cons r l ih => exact (handOver_panelWork s r).trans (ih _)

theorem recompose_panelWork (s : State) (b : Bands) : PanelWork s (s.recompose b) :=
  (compose_panelWork s b).trans (handOverAll_panelWork _ _)

theorem queueFullClean_panelWork (s : State) : PanelWork s s.queueFullClean := by
  unfold State.queueFullClean
  split
  · exact (setTiles_panelWork s _ (by simp)).trans (noteAttempt_panelWork _)
  · exact .refl s

/-! ### A settled step leaves no attempt waiting -/

@[simp] theorem settle_of_not_waiting {s : State} (h : s.attemptWaiting = false) : s.settle = s := by
  simp [State.settle, h]

end Sys2Proof.Machine
end

