-- ==== Sys2Proof/Laws/Attempts.lean ====
section
/-! SUPPORT. What a grant attempt can do while no change of size is pending, and that every step takes the attempts it
brings. -/

namespace Sys2Proof.Machine

/-- From `s` to `t` at most a job was granted, and its rise or drive started: no fault, no tile record, no row record, no
geometry and no job's number or class changed. -/
structure GrantWork (s t : State) : Prop extends PanelWork s t where
  faults : t.faults = s.faults
  tiles : t.tiles.tiles = s.tiles.tiles
  wt : t.tiles.wt = s.tiles.wt
  ht : t.tiles.ht = s.tiles.ht
  jobs : t.tiles.jobs.map (fun j => (j.num, j.cls)) = s.tiles.jobs.map (fun j => (j.num, j.cls))
  composer : t.composer = s.composer

theorem GrantWork.refl (s : State) : GrantWork s s := ⟨.refl s, rfl, rfl, rfl, rfl, rfl, rfl⟩

theorem GrantWork.trans {s t u : State} (h : GrantWork s t) (k : GrantWork t u) : GrantWork s u :=
  ⟨h.toPanelWork.trans k.toPanelWork, k.faults.trans h.faults, k.tiles.trans h.tiles, k.wt.trans h.wt, k.ht.trans h.ht,
    k.jobs.trans h.jobs, k.composer.trans h.composer⟩

/-- A pending change of size is neither made nor undone. -/
theorem GrantWork.sizeDiffers {s t : State} (h : GrantWork s t) : t.sizeDiffers = s.sizeDiffers := by
  simp only [State.sizeDiffers, h.cfg, h.wt, h.ht]

theorem changeJob_numCls (tm : TileMap) (n : Nat) (f : Job → Job) (hf : ∀ j, (f j).num = j.num ∧ (f j).cls = j.cls) :
    (tm.changeJob n f).jobs.map (fun j => (j.num, j.cls)) = tm.jobs.map (fun j => (j.num, j.cls)) := by
  simp only [TileMap.changeJob, List.map_map]
  refine List.map_congr_left fun j _ => ?_
  simp only [Function.comp]
  split <;> simp [hf]

theorem startDrive_grantWork (s : State) : GrantWork s s.startDrive := by
  refine ⟨startDrive_panelWork s, ?_, ?_, ?_, ?_, ?_, ?_⟩ <;>
    (unfold State.startDrive
     split <;> first | rfl | exact changeJob_numCls _ _ _ fun _ => ⟨rfl, rfl⟩)

theorem startRise_grantWork (s : State) : GrantWork s s.startRise := ⟨startRise_panelWork s, rfl, rfl, rfl, rfl, rfl, rfl⟩

theorem choose_grantWork (s : State) : GrantWork s s.choose.2 := by
  unfold State.choose
  split
  · exact .refl s
  · exact ⟨by constructor <;> rfl, rfl, rfl, rfl, rfl, rfl, rfl⟩

theorem meetOff_grantWork (s : State) : GrantWork s s.meetOff := by
  unfold State.meetOff
  split
  · exact startRise_grantWork s
  · exact .refl s

theorem lingerDown_grantWork (s : State) : GrantWork s s.lingerDown :=
  ⟨lingerDown_panelWork s, rfl, rfl, rfl, rfl, rfl, rfl⟩

theorem meetReady_grantWork (s : State) : GrantWork s s.meetReady := by
  refine GrantWork.trans ?_ (startDrive_grantWork _)
  exact ⟨by constructor <;> rfl, rfl, rfl, rfl, rfl, rfl, rfl⟩

theorem meetBooster_grantWork (s : State) : GrantWork s s.meetBooster := by
  rcases meetBooster_cases s with h | h | h | h | h <;> rw [h]
  · exact .refl s
  · exact meetOff_grantWork s
  · exact meetReady_grantWork s
  · exact (choose_grantWork s).trans ((lingerDown_grantWork _).trans (meetOff_grantWork _))
  · exact (choose_grantWork s).trans (meetReady_grantWork _)

theorem applySize_same {s : State} (h : s.sizeDiffers = false) (n : Nat) : s.applySize n = s := by
  simp [State.applySize, h]

theorem grant_grantWork {s : State} (h : s.sizeDiffers = false) (j : Job) (b : Nat) : GrantWork s (s.grant j b) := by
  unfold State.grant
  simp only
  split
  · rw [applySize_same (by exact h)]
    refine ⟨by constructor <;> rfl, rfl, rfl, rfl, rfl, ?_, rfl⟩
    exact changeJob_numCls s.tiles j.num (fun k => { k with state := .granted }) fun _ => ⟨rfl, rfl⟩
  · refine GrantWork.trans ?_ (meetBooster_grantWork _)
    refine ⟨by constructor <;> rfl, rfl, rfl, rfl, rfl, ?_, rfl⟩
    exact changeJob_numCls s.tiles j.num (fun k => { k with state := .granted }) fun _ => ⟨rfl, rfl⟩

/-- Everything a grant attempt can do while no change of size is pending (R149, R152, R157). -/
theorem attempt_grantWork {s : State} (h : s.sizeDiffers = false) : GrantWork s s.attempt := by
  unfold State.attempt
  split
  · exact .refl s
  · exact grant_grantWork h _ _

/-- A noted attempt, taken now or kept for the end of the step (R149). -/
theorem noteAttempt_grantWork {s : State} (h : s.sizeDiffers = false) : GrantWork s s.noteAttempt := by
  unfold State.noteAttempt
  split
  · exact (choose_grantWork s).trans (attempt_grantWork ((choose_grantWork s).sizeDiffers.trans h))
  · exact (choose_grantWork s).trans ⟨by constructor <;> rfl, rfl, rfl, rfl, rfl, rfl, rfl⟩

/-- The end of a step (R149). -/
theorem settle_grantWork {s : State} (h : s.sizeDiffers = false) : GrantWork s s.settle := by
  unfold State.settle
  split
  · refine GrantWork.trans ?_ (attempt_grantWork (by exact h))
    exact ⟨by constructor <;> rfl, rfl, rfl, rfl, rfl, rfl, rfl⟩
  · exact .refl s

/-! ### The attempt that waits -/

@[simp] theorem startDrive_attemptWaiting (s : State) : s.startDrive.attemptWaiting = s.attemptWaiting := by
  unfold State.startDrive
  split <;> rfl

@[simp] theorem choose_attemptWaiting (s : State) : s.choose.2.attemptWaiting = s.attemptWaiting := by
  unfold State.choose
  split <;> rfl

@[simp] theorem meetOff_attemptWaiting (s : State) : s.meetOff.attemptWaiting = s.attemptWaiting := by
  unfold State.meetOff
  split <;> rfl

@[simp] theorem lingerDown_attemptWaiting (s : State) : s.lingerDown.attemptWaiting = s.attemptWaiting := rfl

@[simp] theorem meetReady_attemptWaiting (s : State) : s.meetReady.attemptWaiting = s.attemptWaiting := by
  simp [State.meetReady]

@[simp] theorem meetBooster_attemptWaiting (s : State) : s.meetBooster.attemptWaiting = s.attemptWaiting := by
  rcases meetBooster_cases s with h | h | h | h | h <;> rw [h] <;> simp

@[simp] theorem raiseAll_attemptWaiting (l : List FaultCode) (s : State) :
    (s.raiseAll l).attemptWaiting = s.attemptWaiting := by
  induction l generalizing s with
  | nil => rfl
  | cons c l ih => exact ih _

@[simp] theorem compose_attemptWaiting (s : State) (b : Bands) : (s.compose b).1.attemptWaiting = s.attemptWaiting := by
  simp only [State.compose, State.keepWritten, raiseAll_attemptWaiting, State.evaluated]
  split <;> rfl

@[simp] theorem applySize_attemptWaiting (s : State) (n : Nat) : (s.applySize n).attemptWaiting = s.attemptWaiting := by
  unfold State.applySize
  split
  · simp [State.formAll, State.setTiles]
  · rfl

@[simp] theorem grant_attemptWaiting (s : State) (j : Job) (b : Nat) :
    (s.grant j b).attemptWaiting = s.attemptWaiting := by
  unfold State.grant
  simp only
  split
  · simp [State.setDrive]
  · simp

@[simp] theorem attempt_attemptWaiting (s : State) : s.attempt.attemptWaiting = s.attemptWaiting := by
  unfold State.attempt
  split
  · rfl
  · simp

/-- After the end of a step no attempt waits. -/
@[simp] theorem settle_attemptWaiting (s : State) : s.settle.attemptWaiting = false := by
  unfold State.settle
  split
  · simp
  · simp_all

/-! ### Timers that are due, and the supply level -/

/-- A timer is due when it runs and its count has reached zero (R67). -/
theorem Timer.due_iff (t : Timer) : t.due = true ↔ t.running = true ∧ t.remaining = 0 := by simp [Timer.due]

/-- A stopped timer is never due (R67). -/
@[simp] theorem Timer.stop_due (t : Timer) : t.stop.due = false := rfl

/-- A started timer is due only with a period of zero (R67). -/
@[simp] theorem Timer.start_due (t : Timer) : t.start.due = decide (t.reload = 0) := by
  simp [Timer.due, Timer.start, Bool.beq_eq_decide_eq]

/-- The comparator either stands at the level already, or its edge reaches the Panel Drive (R161). -/
theorem moveLevel_cases (s : State) (level : Bool) :
    (level = s.above ∧ s.moveLevel level = s) ∨
      (level ≠ s.above ∧ s.moveLevel level = s.driveEvent (if level then .supplyRise else .brownout)) := by
  unfold State.moveLevel
  by_cases h : level = s.above
  · exact .inl ⟨h, if_pos h⟩
  · exact .inr ⟨h, if_neg h⟩

/-- A return of the granted job is work towards the panel (R133). -/
theorem returnGranted_panelWork (s : State) : PanelWork s s.returnGranted := by
  unfold State.returnGranted
  split
  · exact .refl s
  · constructor <;> simp [State.setDrive, State.setTiles]

/-- What a brownout reaches beside the supply level and the retry pause timer is work towards the panel (R161). -/
theorem takeBrownout_panelWork (s : State) :
    PanelWork { s with
      drive := { s.drive with supplyAbove := false }
      timers := { s.timers with retry := s.takeBrownout.timers.retry } } s.takeBrownout := by
  have rising (u : State) : (State.attempt u.returnGranted).timers.retry = u.timers.retry := by
    rw [((returnGranted_panelWork u).trans (attempt_panelWork _)).timers]
  unfold State.takeBrownout
  split
  · constructor <;> rfl
  · refine PanelWork.trans ?_ ((returnGranted_panelWork _).trans (attempt_panelWork _))
    constructor <;> simp [rising, Drive.lowered, State.setDrive, Timers.stopRise]
  · constructor <;> rfl
  · constructor <;> rfl

/-- What a rise of the supply level reaches beside the level is work towards the panel (R161). -/
theorem takeSupplyRise_panelWork (s : State) :
    PanelWork { s with drive := { s.drive with supplyAbove := true } } s.takeSupplyRise := by
  unfold State.takeSupplyRise
  simp only
  split
  · exact startRise_panelWork _
  · exact .refl _

end Sys2Proof.Machine
end

