-- ==== Sys2Proof/Laws/Board.lean ====
section
/-! SUPPORT. The board's operations: what placing an entry does to the list, and that insertion, refill, a rebuild and the
prediction records touch the board and the Fault Unit alone, and what departures do to the gone list. -/

namespace Sys2Proof.Machine

/-! ### Placing (R4) -/

@[simp] theorem mem_placeEntry (e x : Entry) (l : List Entry) : x ∈ placeEntry e l ↔ x = e ∨ x ∈ l := by
  induction l with
  | nil => simp [placeEntry]
  | cons y l ih =>
    unfold placeEntry
    split
    · simp
    · simp only [List.mem_cons, ih]
      constructor
      · rintro (h | h | h) <;> simp [h]
      · rintro (h | h | h) <;> simp [h]

@[simp] theorem length_placeEntry (e : Entry) (l : List Entry) : (placeEntry e l).length = l.length + 1 := by
  induction l with
  | nil => rfl
  | cons y l ih =>
    unfold placeEntry
    split <;> simp [ih]

@[simp] theorem mem_sortEntries (x : Entry) (l : List Entry) : x ∈ sortEntries l ↔ x ∈ l := by
  induction l with
  | nil => simp [sortEntries]
  | cons y l ih => simp [sortEntries, ih]

@[simp] theorem length_sortEntries (l : List Entry) : (sortEntries l).length = l.length := by
  induction l with
  | nil => rfl
  | cons y l ih => simp [sortEntries, ih]

/-! ### Work on the board alone -/

/-- From `s` to `t` nothing changed but the board and the Fault Unit, which keeps its reset cause. -/
structure BoardWork (s t : State) : Prop where
  others : t = { s with board := t.board, faults := t.faults }
  cause : t.faults.cause = s.faults.cause

theorem BoardWork.refl (s : State) : BoardWork s s := ⟨rfl, rfl⟩

theorem BoardWork.trans {s t u : State} (h : BoardWork s t) (k : BoardWork t u) : BoardWork s u :=
  ⟨by rw [k.others, h.others], k.cause.trans h.cause⟩

theorem setBoard_boardWork (s : State) (b : Board) : BoardWork s (s.setBoard b) := ⟨rfl, rfl⟩

theorem raise_boardWork (s : State) (c : FaultCode) : BoardWork s (s.raise c) := ⟨rfl, rfl⟩

/-- An insertion, at capacity or not (R9). -/
theorem insertEntry_boardWork (s : State) (e : Entry) : BoardWork s (s.insertEntry e).1 := by
  unfold State.insertEntry
  split
  · exact setBoard_boardWork s _
  · split
    · exact raise_boardWork s _
    · split
      · exact (raise_boardWork s _).trans (setBoard_boardWork _ _)
      · exact raise_boardWork s _

theorem offerTrip_boardWork (r : Role) (a : State × Bool) (t : Trip) : BoardWork a.1 (State.offerTrip r a t).1 := by
  unfold State.offerTrip
  simp only
  split
  · exact insertEntry_boardWork _ _
  · exact .refl _

theorem foldl_offerTrip_boardWork (r : Role) (l : List Trip) (a : State × Bool) :
    BoardWork a.1 (l.foldl (State.offerTrip r) a).1 := by
  induction l generalizing a with
  | nil => exact .refl _
  | cons t l ih => exact (offerTrip_boardWork r a t).trans (ih _)

/-- Refill from the banks of two roles (R10). -/
theorem refillFrom_boardWork (s : State) (r : Roles) : BoardWork s (s.refillFrom r).1 := by
  unfold State.refillFrom
  split
  · exact (foldl_offerTrip_boardWork .current _ (s, false)).trans (foldl_offerTrip_boardWork .next _ _)
  · exact .refl s

/-- Refill (R10). -/
theorem refill_boardWork (s : State) : BoardWork s s.refill.1 := refillFrom_boardWork s _

/-- A rebuild from the banks of two roles (R22). -/
theorem rebuildFrom_boardWork (s : State) (r : Roles) : BoardWork s (s.rebuildFrom r) :=
  (setBoard_boardWork s _).trans (refillFrom_boardWork _ r)

/-- A rebuild (R22). -/
theorem rebuild_boardWork (s : State) : BoardWork s s.rebuild := rebuildFrom_boardWork s _

/-- The gone list takes no part in an insertion (R9). -/
theorem insertEntry_gone (s : State) (e : Entry) : (s.insertEntry e).1.board.gone = s.board.gone := by
  unfold State.insertEntry
  split
  · rfl
  · split
    · rfl
    · split <;> rfl

/-! ### Prediction records (R15 to R21, R46) -/

theorem insertFor_boardWork (s : State) (e : Entry) : BoardWork s (s.insertFor e).state := insertEntry_boardWork s e

theorem applyEstimate_boardWork (s : State) (k : Key) (p : Nat) (t : Int) (d : Option Nat) :
    BoardWork s (s.applyEstimate k p t d).state := by
  unfold State.applyEstimate State.estimateEntry
  repeat' split
  all_goals first | exact .refl s | exact setBoard_boardWork s _ | exact insertFor_boardWork s _

theorem applyCancel_boardWork (s : State) (k : Key) (p : Nat) : BoardWork s (s.applyCancel k p).state := by
  unfold State.applyCancel State.cancelEntry
  simp only
  repeat' split
  all_goals first | exact .refl s | exact setBoard_boardWork s _ | exact insertFor_boardWork s _

theorem applyRestore_boardWork (s : State) (k : Key) : BoardWork s (s.applyRestore k).state := by
  unfold State.applyRestore
  repeat' split
  all_goals first | exact .refl s | exact setBoard_boardWork s _

theorem applyDeparted_boardWork (s : State) (k : Key) : BoardWork s (s.applyDeparted k).state := by
  unfold State.applyDeparted
  repeat' split
  all_goals first | exact .refl s | exact setBoard_boardWork s _

/-- One prediction record through its stages (R46). -/
theorem intake_boardWork (s : State) (r : PredictRecord) : BoardWork s (s.intake r).state := by
  unfold State.intake State.boardRecord
  repeat' split
  all_goals first
    | exact .refl s
    | exact applyEstimate_boardWork s _ _ _ _
    | exact applyCancel_boardWork s _ _
    | exact applyDeparted_boardWork s _
    | exact applyRestore_boardWork s _

/-- The records of a request in turn (R45). -/
theorem intakeAll_boardWork (l : List PredictRecord) (s : State) : BoardWork s (s.intakeAll l).1 := by
  induction l generalizing s with
  | nil => exact .refl s
  | cons r l ih => exact (intake_boardWork s r).trans (ih _)

/-- Every record ends in one outcome (R46). -/
theorem intakeAll_length (l : List PredictRecord) (s : State) : (s.intakeAll l).2.1.length = l.length := by
  induction l generalizing s with
  | nil => rfl
  | cons r l ih => simp [State.intakeAll, ih]

/-! ### Departures -/

/-- The gone record of an entry that leaves as a departure, if it leaves one (R7). -/
theorem departGone_eq (now grace : Int) (gone : List Gone) (e : Entry) :
    departGone now grace gone e =
      match (e.sched.filter fun x => decide (e.origin ≠ .extra ∧ now - grace ≤ x)).map fun x => (⟨e.key, x + grace⟩ : Gone) with
      | none => gone
      | some g => gone.drop (gone.length - 31) ++ [g] := by
  unfold departGone
  cases e.origin <;> cases e.sched with
  | none => rfl
  | some x =>
    first
    | rfl
    | (by_cases h : now - grace ≤ x
       · simp only [Option.filter, h, and_true, ne_eq, reduceCtorEq, not_false_eq_true, decide_true, if_true,
           Option.map_some, joinGone]
       · simp only [Option.filter, h, and_false, decide_false, Bool.false_eq_true, if_false, Option.map_none])

/-- Everything that departures do to a gone list that fits: the records of those that join stand behind the old ones, and of more
than 32 the oldest have left (R7). -/
theorem foldl_departGone (now grace : Int) (l : List Entry) (gone : List Gone) (h : gone.length ≤ 32) :
    GoneJoined gone l (now - grace) grace (l.foldl (departGone now grace) gone) := by
  refine ⟨_, .refl _, ?_⟩
  induction l generalizing gone with
  | nil => simp [Nat.sub_eq_zero_of_le h]
  | cons e l ih =>
    rw [List.foldl_cons, departGone_eq]
    cases k : (e.sched.filter fun x => decide (e.origin ≠ .extra ∧ now - grace ≤ x)).map fun x => (⟨e.key, x + grace⟩ : Gone) with
    | none => simp only [List.filterMap_cons, k]; exact ih gone h
    | some g =>
      simp only [List.filterMap_cons, k]
      rw [ih _ (by simp; omega)]
      have drop_split (a b : List Gone) (i : Nat) (hi : i ≤ a.length) : a.drop i ++ b = (a ++ b).drop i :=
        (List.drop_append_of_le_length hi).symm
      rw [List.append_assoc, drop_split _ _ _ (by omega), List.drop_drop]
      congr 1
      simp only [List.length_drop, List.length_append, List.length_cons, List.length_nil]
      omega

end Sys2Proof.Machine
end

