-- ==== Sys2Proof/Laws/Content.lean ====
section
/-! SUPPORT. Work towards the panel and on the board raises CONTENT faults and no others (R9, R103, R174): for each shared operation,
the list of the faults it raises. -/

namespace Sys2Proof.Machine

/-- From `s` to `t` the clock stands, and CONTENT faults alone were raised, one after another (R174). -/
structure ContentWork (s t : State) : Prop where
  clock : t.clock = s.clock
  raised : ∃ codes : List FaultCode, (∀ c ∈ codes, c.cls = .content) ∧
    t.faults = codes.foldl (fun f c => f.raise c s.clock.stamp) s.faults

theorem ContentWork.of_same {s t : State} (h : t.clock = s.clock) (k : t.faults = s.faults) : ContentWork s t :=
  ⟨h, [], by simp, k⟩

theorem ContentWork.refl (s : State) : ContentWork s s := .of_same rfl rfl

theorem ContentWork.trans {s t u : State} (h : ContentWork s t) (k : ContentWork t u) : ContentWork s u := by
  obtain ⟨c, a, ha, ea⟩ := h
  obtain ⟨d, b, hb, eb⟩ := k
  refine ⟨d.trans c, a ++ b, fun x hx => (List.mem_append.1 hx).elim (ha x) (hb x), ?_⟩
  rw [eb, ea, c, List.foldl_append]

/-- The same work begun, or ended, one change of other fields further out. -/
theorem ContentWork.from {s u t : State} (h : ContentWork u t) (c : u.clock = s.clock) (f : u.faults = s.faults) :
    ContentWork s t := (ContentWork.of_same c f).trans h

theorem ContentWork.to {s u t : State} (h : ContentWork s u) (c : t.clock = u.clock) (f : t.faults = u.faults) :
    ContentWork s t := h.trans (.of_same c f)

theorem raise_contentWork (s : State) {c : FaultCode} (h : c.cls = .content) : ContentWork s (s.raise c) :=
  ⟨rfl, [c], by simpa using h, rfl⟩

theorem raiseAll_contentWork (l : List FaultCode) (s : State) (h : ∀ c ∈ l, c.cls = .content) : ContentWork s (s.raiseAll l) := by
  induction l generalizing s with
  | nil => exact .refl s
  | cons c l ih => exact (raise_contentWork s (h c (by simp))).trans (ih _ fun d hd => h d (by simp [hd]))

/-! ### Rendering and recomposition (R103) -/

theorem renderField_content (s : State) (f : Field) : ∀ c ∈ (s.renderField f).2, c.cls = .content := by
  intro c hc
  simp only [State.renderField, List.mem_append] at hc
  rcases hc with hc | hc <;> split at hc <;> simp at hc <;> subst hc <;> rfl

theorem renderFields_content (s : State) (fs : List Field) : ∀ c ∈ (s.renderFields fs).2.2, c.cls = .content := by
  induction fs with
  | nil => simp [State.renderFields]
  | cons f fs ih =>
    intro c hc
    rcases List.mem_append.1 hc with hc | hc
    · exact renderField_content s f c hc
    · exact ih c hc

theorem renderParts_content (s : State) (ps : List BandPart) : ∀ c ∈ (s.renderParts ps).1, c.cls = .content := by
  induction ps with
  | nil => simp [State.renderParts]
  | cons p ps ih =>
    intro c hc
    rcases List.mem_append.1 hc with hc | hc
    · exact renderFields_content s _ c hc
    · exact ih c hc

theorem compose_contentWork (s : State) (b : Bands) : ContentWork s (s.compose b).1 := by
  have e : ContentWork s (s.evaluated b) := by
    unfold State.evaluated
    split <;> exact .of_same rfl rfl
  exact e.trans ((raiseAll_contentWork _ _ (renderParts_content _ _)).to rfl rfl)

/-! ### Grants and hand-overs: a grant that applies a size recomposes (R129) -/

theorem startDrive_contentWork (s : State) : ContentWork s s.startDrive := by
  unfold State.startDrive
  split
  · exact .refl s
  · exact .of_same rfl rfl

theorem meetOff_contentWork (s : State) : ContentWork s s.meetOff := by
  unfold State.meetOff
  split
  · exact .of_same rfl rfl
  · exact .refl s

theorem choose_contentWork (s : State) : ContentWork s s.choose.2 := by
  unfold State.choose
  split
  · exact .refl s
  · exact .of_same rfl rfl

theorem meetReady_contentWork (s : State) : ContentWork s s.meetReady :=
  (startDrive_contentWork _).from rfl rfl

theorem meetBooster_contentWork (s : State) : ContentWork s s.meetBooster := by
  rcases meetBooster_cases s with h | h | h | h | h <;> rw [h]
  · exact .refl s
  · exact meetOff_contentWork s
  · exact meetReady_contentWork s
  · exact (choose_contentWork s).trans ((meetOff_contentWork s.choose.2.lingerDown).from rfl rfl)
  · exact (choose_contentWork s).trans (meetReady_contentWork _)

theorem formAll_contentWork (s : State) (l : List Nat) : ContentWork s (s.formAll l) := .of_same rfl rfl

theorem setDrive_contentWork (s : State) (d : Drive) : ContentWork s (s.setDrive d) := .of_same rfl rfl

theorem applySize_contentWork (s : State) (n : Nat) : ContentWork s (s.applySize n) := by
  unfold State.applySize
  split
  · exact ((compose_contentWork _ allBands).trans (formAll_contentWork _ _)).from rfl rfl
  · exact .refl s

theorem grant_contentWork (s : State) (j : Job) (b : Nat) : ContentWork s (s.grant j b) := by
  unfold State.grant
  split
  · exact ((applySize_contentWork _ j.num).trans (setDrive_contentWork _ _)).from rfl rfl
  · exact (meetBooster_contentWork _).from rfl rfl

/-- A grant attempt raises CONTENT faults alone, and those only where it applies a size (R129, R149). -/
theorem attempt_contentWork (s : State) : ContentWork s s.attempt := by
  unfold State.attempt
  split
  · exact .refl s
  · exact grant_contentWork s _ _

theorem noteAttempt_contentWork (s : State) : ContentWork s s.noteAttempt := by
  unfold State.noteAttempt
  split
  · exact (choose_contentWork s).trans (attempt_contentWork _)
  · exact (choose_contentWork s).to rfl rfl

theorem settle_contentWork (s : State) : ContentWork s s.settle := by
  unfold State.settle
  split
  · exact (attempt_contentWork _).from rfl rfl
  · exact .refl s

theorem takeTiles_contentWork (s : State) (a : TileMap × Bool) : ContentWork s (s.takeTiles a) := by
  unfold State.takeTiles
  split
  · exact (noteAttempt_contentWork _).from rfl rfl
  · exact .of_same rfl rfl

theorem handOverAll_contentWork (l : List Nat) (s : State) : ContentWork s (s.handOverAll l) := by
  induction l generalizing s with
  | nil => exact .refl s
  | cons r l ih => exact (takeTiles_contentWork s _ : ContentWork s (s.handOver r)).trans (ih _)

/-- A recomposition with its hand-overs raises CONTENT faults alone (R87, R103). -/
theorem recompose_contentWork (s : State) (b : Bands) : ContentWork s (s.recompose b) :=
  (compose_contentWork s b).trans (handOverAll_contentWork _ _)

/-! ### The board (R9) -/

theorem insertEntry_contentWork (s : State) (e : Entry) : ContentWork s (s.insertEntry e).1 := by
  unfold State.insertEntry
  split
  · exact .of_same rfl rfl
  · split
    · exact raise_contentWork s rfl
    · split
      · exact (raise_contentWork s rfl).to rfl rfl
      · exact raise_contentWork s rfl

theorem foldl_offerTrip_contentWork (r : Role) (l : List Trip) (a : State × Bool) :
    ContentWork a.1 (l.foldl (State.offerTrip r) a).1 := by
  induction l generalizing a with
  | nil => exact .refl _
  | cons t l ih =>
    refine ContentWork.trans ?_ (ih _)
    unfold State.offerTrip
    simp only
    split
    · exact insertEntry_contentWork _ _
    · exact .refl _

/-- A refill raises CONTENT/503 alone, at a full board (R9, R10). -/
theorem refillFrom_contentWork (s : State) (r : Roles) : ContentWork s (s.refillFrom r).1 := by
  unfold State.refillFrom
  split
  · exact (foldl_offerTrip_contentWork .current _ (s, false)).trans (foldl_offerTrip_contentWork .next _ _)
  · exact .refl s

/-- A rebuild raises CONTENT/503 alone (R9, R22). -/
theorem rebuildFrom_contentWork (s : State) (r : Roles) : ContentWork s (s.rebuildFrom r) :=
  (refillFrom_contentWork _ r).from rfl rfl

end Sys2Proof.Machine
end

