-- ==== Sys2Proof/Laws/Rows.lean ====
section
/-! SUPPORT. The evaluation of the departure rows, row by row, and that neither writing signatures nor hand-overs touch a row
record while no change of size is pending. -/

namespace Sys2Proof.Machine

/-- Row `k` with the entry at its position, or EMPTY beyond the board (R76). -/
theorem evaluateRows_row (now : Int) (d p : Nat) (c : Bool) (rows : List RowRecord) (es : List Entry) (k : Nat) :
    (evaluateRows now d p c rows es)[k]? = rows[k]?.map fun r =>
      match es[k]? with
      | none => .empty
      | some e => evaluateEntry now d p c r e := by
  induction rows generalizing es k with
  | nil => simp [evaluateRows]
  | cons r rows ih =>
    cases es with
    | nil => cases k <;> simp [evaluateRows, ih]
    | cons e es => cases k <;> simp [evaluateRows, ih]

/-- Row 1 with its message, and EMPTY rows (R76). -/
theorem messageRows_row (m : MessageText) (rows : List RowRecord) (k : Nat) :
    (messageRows m rows)[k]? = rows[k]?.map fun _ => if k = 0 then .message m else .empty := by
  cases rows with
  | nil => simp [messageRows]
  | cons r rows =>
    cases k with
    | zero => rfl
    | succ n =>
      show (rows.map fun _ => RowRecord.empty)[n]? = _
      rw [List.getElem?_map]
      simp

theorem evaluate_length (s : State) : s.evaluate.length = s.composer.rows.length := by
  have h1 : ∀ m rows, (messageRows m rows).length = rows.length := by
    intro m rows
    cases rows <;> simp [messageRows]
  have h2 : ∀ now d p c rows es, (evaluateRows now d p c rows es).length = rows.length := by
    intro now d p c rows
    induction rows with
    | nil => intro es; rfl
    | cons r rows ih => intro es; cases es <;> simp [evaluateRows, ih]
  unfold State.evaluate
  split
  · exact h1 _ _
  · split
    · exact h1 _ _
    · exact h2 _ _ _ _ _ _

@[simp] theorem raiseAll_composer (l : List FaultCode) (s : State) : (s.raiseAll l).composer = s.composer := by
  induction l generalizing s with
  | nil => rfl
  | cons c l ih => exact ih _

@[simp] theorem raiseAll_tiles (l : List FaultCode) (s : State) : (s.raiseAll l).tiles = s.tiles := by
  induction l generalizing s with
  | nil => rfl
  | cons c l ih => exact ih _

/-- A composition leaves the row records as evaluated (R87). -/
theorem compose_rows (s : State) (b : Bands) :
    (s.compose b).1.composer.rows = if b.rows then s.evaluate else s.composer.rows := by
  simp only [State.compose, State.keepWritten, raiseAll_composer, State.evaluated]
  split <;> rfl

theorem compose_geometry (s : State) (b : Bands) :
    (s.compose b).1.tiles.wt = s.tiles.wt ∧ (s.compose b).1.tiles.ht = s.tiles.ht := by
  simp only [State.compose, State.keepWritten, raiseAll_tiles, State.evaluated]
  split <;> exact ⟨rfl, rfl⟩

theorem queueSpans_geometry (b : JobClass) (o : List Job) (r : Nat) (l : List (Nat × Nat)) (tm : TileMap) :
    (TileMap.queueSpans b o r tm l).wt = tm.wt ∧ (TileMap.queueSpans b o r tm l).ht = tm.ht := by
  induction l generalizing tm with
  | nil => exact ⟨rfl, rfl⟩
  | cons x l ih =>
    unfold TileMap.queueSpans
    split
    · exact ih _
    · exact ⟨rfl, rfl⟩

theorem formRow_geometry (tm : TileMap) (b : JobClass) (r : Nat) :
    (tm.formRow b r).1.wt = tm.wt ∧ (tm.formRow b r).1.ht = tm.ht := by
  unfold TileMap.formRow
  split
  · exact ⟨rfl, rfl⟩
  · exact queueSpans_geometry ..

/-- A hand-over touches no row record and keeps the geometry, while no change of size is pending (R120). -/
theorem handOver_rows {s : State} (h : s.sizeDiffers = false) (r : Nat) :
    (s.handOver r).composer = s.composer ∧ (s.handOver r).sizeDiffers = false := by
  have g := formRow_geometry s.tiles s.notices.jobClass r
  have hz : (s.setTiles (s.tiles.formRow s.notices.jobClass r).1).sizeDiffers = false := by
    simpa [State.sizeDiffers, State.setTiles, g.1, g.2] using h
  unfold State.handOver
  simp only
  split
  · have w := noteAttempt_grantWork hz
    exact ⟨w.composer, w.sizeDiffers.trans hz⟩
  · exact ⟨rfl, hz⟩

theorem handOverAll_rows (l : List Nat) {s : State} (h : s.sizeDiffers = false) :
    (s.handOverAll l).composer = s.composer ∧ (s.handOverAll l).sizeDiffers = false := by
  induction l generalizing s with
  | nil => exact ⟨rfl, h⟩
  | cons r l ih =>
    have a := handOver_rows h r
    have b := ih a.2
    exact ⟨b.1.trans a.1, b.2⟩

/-- A whole recomposition leaves the row records as evaluated, while no change of size is pending (R87). -/
theorem recompose_rows {s : State} (h : s.sizeDiffers = false) (b : Bands) :
    (s.recompose b).composer.rows = (if b.rows then s.evaluate else s.composer.rows) ∧
      (s.recompose b).sizeDiffers = false := by
  have g := compose_geometry s b
  have c := compose_panelWork s b
  have hz : (s.compose b).1.sizeDiffers = false := by
    simpa [State.sizeDiffers, c.cfg, g.1, g.2] using h
  have a := handOverAll_rows (s.compose b).2 hz
  exact ⟨(congrArg Composer.rows a.1).trans (compose_rows s b), a.2⟩

end Sys2Proof.Machine
end

