-- ==== Sys2Proof/Laws/Image.lean ====
section
/-! SUPPORT. The wanted image (R73, R82 to R86, R90, R91): each pixel of rendered fields side by side and of the tiles cut from
them, the fields of each band, and that a recomposition writes into every tile it covers the signature of its image. -/

namespace Sys2Proof.Machine

/-! ### Digits (R82) -/

theorem digitChar_toNat : ∀ n, n < 10 → n.digitChar.toNat = 48 + n := by decide

theorem digitCodes_eq (fuel n : Nat) (h : n < fuel) : digitCodes fuel n = digitsOf n := by
  induction fuel generalizing n with
  | zero => omega
  | succ fuel ih =>
    unfold digitCodes digitsOf
    split
    · rename_i k
      simp [Nat.toDigits_of_lt_base k, digitChar_toNat n k]
    · rename_i k
      rw [Nat.toDigits_of_base_le (by decide) (by omega), ih (n / 10) (by omega)]
      simp [digitsOf, digitChar_toNat (n % 10) (by omega)]

/-- A number's digits are those of its decimal form (R82). -/
theorem decimal_eq (n : Nat) : decimal n = digitsOf n := digitCodes_eq (n + 1) n (by omega)

/-- A wall minute's codes (R83). -/
theorem clockCodes_eq (m : Nat) : clockCodes m = wallCodes m := by
  simp [clockCodes, wallCodes, Nat.div_div_eq_div_mul]

/-! ### A field's pixel rows fit its width (R104, R105) -/

theorem rowBits_lt (g : Glyph) (h : g.width ≤ 40) (r : Nat) : g.rowBits r < 2 ^ g.width := by
  unfold Glyph.rowBits
  rw [Nat.div_lt_iff_lt_mul (Nat.two_pow_pos _), ← Nat.pow_add, show g.width + (40 - g.width) = 40 by omega]
  exact (g.rows.getD r 0).isLt

/-- A number put in front of another one of `n` bits. -/
theorem shifted_add_lt {a b k n : Nat} (ha : a < 2 ^ k) (hb : b < 2 ^ n) : a * 2 ^ n + b < 2 ^ (k + n) := by
  have : (a + 1) * 2 ^ n ≤ 2 ^ k * 2 ^ n := Nat.mul_le_mul_right _ ha
  rw [Nat.pow_add]
  rw [Nat.add_mul] at this
  omega

theorem drawRow_lt (w r : Nat) (gs : List Glyph) (hg : ∀ g ∈ gs, g.width ≤ 40) (x : Nat) (h : x + totalWidth gs ≤ w) :
    drawRow w r x gs < 2 ^ (w - x) := by
  induction gs generalizing x with
  | nil => exact Nat.two_pow_pos _
  | cons g gs ih =>
    simp only [totalWidth] at h
    have a := rowBits_lt g (hg g (by simp)) r
    have b := ih (fun y hy => hg y (by simp [hy])) (x + g.width) (by omega)
    rw [show w - (x + g.width) = w - x - g.width by omega] at b
    have c := shifted_add_lt a b
    rwa [show g.width + (w - x - g.width) = w - x by omega] at c

theorem runWithin_width (room : Nat) (gs : List Glyph) : totalWidth (runWithin room gs) ≤ room := by
  induction gs generalizing room with
  | nil => simp [runWithin, totalWidth]
  | cons g gs ih =>
    unfold runWithin
    split
    · have := ih (room - g.width)
      simp only [totalWidth]
      omega
    · simp [totalWidth]

theorem totalWidth_append (a b : List Glyph) : totalWidth (a ++ b) = totalWidth a + totalWidth b := by
  induction a with
  | nil => simp [totalWidth]
  | cons g a ih => simp [totalWidth, ih, Nat.add_assoc]

/-- A fitted line is no wider than the room it has (R104). -/
theorem fitLine_width {available : Nat} {e : Glyph} (h : e.width ≤ available) (gs : List Glyph) :
    totalWidth (fitLine available e gs) ≤ available := by
  unfold fitLine
  split
  · assumption
  · have := runWithin_width (available - e.width) gs
    simp only [totalWidth_append, totalWidth]
    omega

theorem mem_runWithin {room : Nat} {gs : List Glyph} {g : Glyph} (h : g ∈ runWithin room gs) : g ∈ gs := by
  induction gs generalizing room with
  | nil => simp [runWithin] at h
  | cons x gs ih =>
    unfold runWithin at h
    split at h
    · rcases List.mem_cons.1 h with h | h
      · simp [h]
      · simp [ih h]
    · simp at h

theorem mem_fitLine {available : Nat} {e g : Glyph} {gs : List Glyph} (h : g ∈ fitLine available e gs) : g ∈ gs ∨ g = e := by
  unfold fitLine at h
  split at h
  · exact .inl h
  · rcases List.mem_append.1 h with h | h
    · exact .inl (mem_runWithin h)
    · exact .inr (by simpa using h)

/-- What stands for a code is at most 40 px wide (R94, R102). -/
theorem resolve_width {s : State} (h : s.glyphsSound) (code : Nat) : (s.resolve code).width ≤ 40 := by
  have key : ∀ c g, s.glyphEntry c = some g → g.width ≤ 40 := fun c g k => by
    have := h.1 c g k
    simp only [Glyph.inRange, Bool.and_eq_true, decide_eq_true_eq] at this
    exact this.2
  unfold State.resolve
  split
  · exact key _ _ ‹_›
  · cases k : s.glyphEntry 0 with
    | none => decide
    | some g => exact key _ _ k

theorem drawLine_length (w : Nat) (b : Bool) (gs : List Glyph) : (drawLine w b gs).length = 40 := by
  simp [drawLine]

theorem drawLine_row_lt {w : Nat} (b : Bool) {gs : List Glyph} (hg : ∀ g ∈ gs, g.width ≤ 40) (h : totalWidth gs + 4 ≤ w)
    (r : Nat) : (drawLine w b gs).getD r 0 < 2 ^ w := by
  rw [List.getD_eq_getElem?_getD]
  cases k : (drawLine w b gs)[r]? with
  | none => exact Nat.two_pow_pos w
  | some v =>
    have hv := List.mem_of_getElem? k
    simp only [drawLine, List.mem_append, List.mem_replicate, List.mem_map] at hv
    rcases hv with (⟨-, rfl⟩ | ⟨y, -, rfl⟩) | ⟨-, rfl⟩
    · exact Nat.two_pow_pos w
    · refine Nat.lt_of_lt_of_le (drawRow_lt w y gs hg _ ?_) (Nat.pow_le_pow_right (by decide) (Nat.sub_le _ _))
      split <;> omega
    · exact Nat.two_pow_pos w

/-- Every pixel row of a rendered field has 40 pixels for each of its tiles (R90, R105). -/
theorem renderField_row_lt {s : State} (h : s.glyphsSound) (f : Field) (hf : 2 ≤ f.tiles) (r : Nat) :
    (s.renderField f).1.getD r 0 < 2 ^ (40 * f.tiles) := by
  have he := resolve_width h 1
  have hw := fitLine_width (available := 40 * f.tiles - 4) (e := s.resolve 1) (by omega)
    ((s.contentCodes f.content).1.map s.resolve)
  refine drawLine_row_lt _ (fun g hg => ?_) (by omega) r
  rcases mem_fitLine hg with k | rfl
  · obtain ⟨c, -, rfl⟩ := List.mem_map.1 k
    exact resolve_width h c
  · exact he

/-! ### Fields side by side (R90) -/

/-- The width of fields in tiles. -/
def fieldTiles (fs : List Field) : Nat := (fs.map (·.tiles)).sum

theorem renderFields_tiles (s : State) (fs : List Field) : (s.renderFields fs).2.1 = fieldTiles fs := by
  induction fs with
  | nil => rfl
  | cons f fs ih => simp [State.renderFields, fieldTiles, ih]

theorem besides_length {a b : List Nat} (w : Nat) (ha : a.length = 40) (hb : b.length = 40) : (besides w a b).length = 40 := by
  simp [besides, ha, hb]

theorem besides_getD {a b : List Nat} (w : Nat) (ha : a.length = 40) (hb : b.length = 40) (r : Nat) :
    (besides w a b).getD r 0 = a.getD r 0 * 2 ^ w + b.getD r 0 := by
  by_cases h : r < 40
  · simp [besides, List.getD_eq_getElem?_getD, ha, hb, h]
  · simp [besides, List.getD_eq_getElem?_getD, ha, hb, Nat.not_lt.1 h]

theorem renderFields_length (s : State) (fs : List Field) : (s.renderFields fs).1.length = 40 := by
  induction fs with
  | nil => simp [State.renderFields]
  | cons f fs ih => exact besides_length _ (drawLine_length _ _ _) ih

theorem renderFields_row_lt {s : State} (h : s.glyphsSound) (fs : List Field) (hf : ∀ f ∈ fs, 2 ≤ f.tiles) (r : Nat) :
    (s.renderFields fs).1.getD r 0 < 2 ^ (40 * fieldTiles fs) := by
  induction fs with
  | nil =>
    have : (s.renderFields []).1.getD r 0 = 0 := by
      simp only [State.renderFields, List.getD_eq_getElem?_getD, List.getElem?_replicate]
      split <;> rfl
    rw [this]
    exact Nat.two_pow_pos _
  | cons f fs ih =>
    have b := ih fun x hx => hf x (by simp [hx])
    have a := renderField_row_lt h f (hf f (by simp)) r
    have c : (s.renderFields (f :: fs)).1.getD r 0 =
        (s.renderField f).1.getD r 0 * 2 ^ (40 * fieldTiles fs) + (s.renderFields fs).1.getD r 0 := by
      rw [← renderFields_tiles s fs]
      exact besides_getD _ (drawLine_length _ _ _) (renderFields_length s fs) r
    rw [c, show 40 * fieldTiles (f :: fs) = 40 * f.tiles + 40 * fieldTiles fs by simp [fieldTiles, Nat.mul_add]]
    exact shifted_add_lt a b

/-- A pixel of fields side by side is that of the field it belongs to (R90). -/
theorem renderFields_pixel {s : State} (h : s.glyphsSound) (before : List Field) (f : Field) (after : List Field)
    (hf : ∀ x ∈ before ++ f :: after, 2 ≤ x.tiles) {c x r : Nat} (hl : fieldTiles before ≤ c)
    (hr : c < fieldTiles before + f.tiles) (hx : x < 40) :
    ((s.renderFields (before ++ f :: after)).1.getD r 0).testBit
        (40 * fieldTiles (before ++ f :: after) - 1 - (40 * c + x)) =
      ((s.renderField f).1.getD r 0).testBit (40 * f.tiles - 1 - (40 * (c - fieldTiles before) + x)) := by
  have row (g : Field) (gs : List Field) : (s.renderFields (g :: gs)).1.getD r 0 =
      2 ^ (40 * fieldTiles gs) * (s.renderField g).1.getD r 0 + (s.renderFields gs).1.getD r 0 := by
    rw [← renderFields_tiles s gs, Nat.mul_comm]
    exact besides_getD _ (drawLine_length _ _ _) (renderFields_length s gs) r
  have wide (g : Field) (gs : List Field) : fieldTiles (g :: gs) = g.tiles + fieldTiles gs := by simp [fieldTiles]
  induction before generalizing c with
  | nil =>
    have e0 : fieldTiles [] = 0 := rfl
    rw [e0] at hl hr ⊢
    rw [List.nil_append, row, wide,
      Nat.testBit_two_pow_mul_add _ (renderFields_row_lt h after (fun y hy => hf y (by simp [hy])) r), if_neg (by omega)]
    congr 1
    omega
  | cons g before ih =>
    rw [wide] at hl hr ⊢
    rw [List.cons_append, row, wide,
      Nat.testBit_two_pow_mul_add _ (renderFields_row_lt h _ (fun y hy => hf y (by simp_all)) r)]
    have w : fieldTiles before + f.tiles ≤ fieldTiles (before ++ f :: after) := by
      simp [fieldTiles]
    rw [if_pos (by omega), show 40 * (g.tiles + fieldTiles (before ++ f :: after)) - 1 - (40 * c + x) =
      40 * fieldTiles (before ++ f :: after) - 1 - (40 * (c - g.tiles) + x) by omega,
      ih (fun y hy => hf y (by simp_all)) (by omega) (by omega)]
    congr 1
    omega

/-! ### Cutting into tiles (R90) -/

theorem tileNumber_above (n c : Nat) (rows : List Nat) (v k : Nat) :
    (tileNumber n c v rows).testBit (40 * rows.length + k) = v.testBit k := by
  induction rows generalizing v k with
  | nil => simp [tileNumber]
  | cons r rows ih =>
    rw [tileNumber, List.length_cons, show 40 * (rows.length + 1) + k = 40 * rows.length + (40 + k) by omega, ih,
      Nat.mul_comm v, Nat.testBit_two_pow_mul_add _ (Nat.mod_lt _ (Nat.two_pow_pos 40)), if_neg (by omega)]
    congr 1
    omega

theorem tileNumber_pixel (n c : Nat) (rows : List Nat) (v : Nat) {r j : Nat} (hr : r < rows.length) (hj : j < 40) :
    (tileNumber n c v rows).testBit (40 * (rows.length - 1 - r) + j) =
      (rows.getD r 0).testBit (40 * (n - 1 - c) + j) := by
  induction rows generalizing v r with
  | nil => simp at hr
  | cons y rows ih =>
    rw [tileNumber]
    cases r with
    | zero =>
      rw [show (y :: rows).length - 1 - 0 = rows.length by simp, tileNumber_above, Nat.mul_comm v,
        Nat.testBit_two_pow_mul_add _ (Nat.mod_lt _ (Nat.two_pow_pos 40)), if_pos hj, Nat.testBit_mod_two_pow,
        Nat.testBit_div_two_pow]
      simp [hj, Nat.add_comm]
    | succ r =>
      simp only [List.length_cons, Nat.add_lt_add_iff_right] at hr
      rw [show (y :: rows).length - 1 - (r + 1) = rows.length - 1 - r by simp; omega, ih _ hr]
      simp

/-- A tile's pixels are those of its 40 columns of the image (R90). -/
theorem tileAt_pixel {n c : Nat} {rows : List Nat} (hl : rows.length = 40) (hc : c < n) {r x : Nat} (hr : r < 40)
    (hx : x < 40) :
    (tileAt n rows c).getMsbD (40 * r + x) = (rows.getD r 0).testBit (40 * n - 1 - (40 * c + x)) := by
  have := tileNumber_pixel n c rows 0 (r := r) (j := 39 - x) (by omega) (by omega)
  rw [hl] at this
  rw [show 40 * n - 1 - (40 * c + x) = 40 * (n - 1 - c) + (39 - x) by omega, ← this]
  simp only [tileAt, BitVec.getMsbD_eq_getLsbD, BitVec.getLsbD_ofNat]
  rw [show 1600 - 1 - (40 * r + x) = 40 * (40 - 1 - r) + (39 - x) by omega]
  simp [show 40 * r + x < 1600 by omega, show 40 * (40 - 1 - r) + (39 - x) < 1600 by omega]

/-! ### Writing (R91) -/

theorem write_tile (w : Written) (i : Nat) (px : TilePixels) (k : Nat) :
    (w.write i px).tiles[k]? =
      w.tiles[k]?.map fun t => if k = i then { t with wanted := some (signature px) } else t := by
  unfold Written.write
  cases h : w.tiles[i]? with
  | none =>
    by_cases e : k = i
    · simp [e, h]
    · simp [e]
  | some t =>
    have hi := (List.getElem?_eq_some_iff.1 h).1
    simp only
    split
    · rename_i hw
      by_cases e : k = i
      · subst e
        simp [h, ← hw]
      · simp [e]
    · by_cases e : k = i
      · subst e
        rw [List.getElem?_set_self hi, h, Option.map_some, if_pos rfl]
      · simp [e, List.getElem?_set_ne (Ne.symm e)]

/-- Each tile from a place on takes the signature of its part of the image, and no other tile changes (R91). -/
theorem writeTiles_tile (w : Written) (i tiles : Nat) (image : List Nat) (n k : Nat) :
    (w.writeTiles i tiles image n).tiles[k]? =
      w.tiles[k]?.map fun t =>
        if i ≤ k ∧ k < i + n then { t with wanted := some (signature (tileAt tiles image (k - i))) } else t := by
  induction n with
  | zero =>
    rw [Written.writeTiles]
    simp [show ¬(i ≤ k ∧ k < i) by omega]
  | succ n ih =>
    rw [Written.writeTiles, write_tile, ih, Option.map_map]
    congr 1
    funext t
    simp only [Function.comp]
    by_cases e : k = i + n
    · subst e
      simp
    · by_cases h : i ≤ k ∧ k < i + n
      · rw [if_neg e, if_pos h, if_pos (by omega)]
      · rw [if_neg e, if_neg h, if_neg (by omega)]

/-- A part of an image, with its place, covers a tile. -/
def partCovers (wt k : Nat) (q : BandPart × List Nat × Nat) : Prop :=
  q.1.row * wt + q.1.col ≤ k ∧ k < q.1.row * wt + q.1.col + q.2.2

/-- Where some part covers a tile, the tile ends with the signature of a part that covers it; else it stays (R91). -/
theorem writeImages_tile (wt : Nat) (l : List (BandPart × List Nat × Nat)) (tiles : List Tile)
    (pixels : List (Option TilePixels)) (k : Nat) (t : Tile) (ht : tiles[k]? = some t) :
    ((∀ q ∈ l, ¬partCovers wt k q) → (writeImages wt tiles pixels l).1[k]? = some t) ∧
      ((∃ q ∈ l, partCovers wt k q) → ∃ q ∈ l, partCovers wt k q ∧ ∃ y, (writeImages wt tiles pixels l).1[k]? = some y ∧
        y.wanted = some (signature (tileAt q.2.2 q.2.1 (k - (q.1.row * wt + q.1.col))))) := by
  induction l generalizing tiles pixels t with
  | nil => exact ⟨fun _ => ht, fun h => by simp at h⟩
  | cons q l ih =>
    obtain ⟨p, image, n⟩ := q
    have hw := writeTiles_tile (Written.mk tiles pixels false) (p.row * wt + p.col) n image n k
    simp only [ht, Option.map_some] at hw
    have hi := ih _ ((Written.mk tiles pixels false).writeTiles (p.row * wt + p.col) n image n).pixels _ hw
    refine ⟨fun h => ?_, fun h => ?_⟩
    · have a := hi.1 fun q hq => h q (by simp [hq])
      have np : ¬(p.row * wt + p.col ≤ k ∧ k < p.row * wt + p.col + n) := h (p, image, n) (by simp)
      rwa [if_neg np] at a
    · by_cases c : ∃ q ∈ l, partCovers wt k q
      · obtain ⟨q, hq, e⟩ := hi.2 c
        exact ⟨q, by simp [hq], e⟩
      · have hp : p.row * wt + p.col ≤ k ∧ k < p.row * wt + p.col + n := by
          obtain ⟨q, hq, hc⟩ := h
          rcases List.mem_cons.1 hq with rfl | hq
          · exact hc
          · exact absurd ⟨q, hq, hc⟩ c
        have a := hi.1 fun q hq hc => c ⟨q, hq, hc⟩
        rw [if_pos hp] at a
        exact ⟨(p, image, n), by simp, hp, _, a, rfl⟩

theorem writeTiles_length (w : Written) (i tiles : Nat) (image : List Nat) (n : Nat) :
    (w.writeTiles i tiles image n).tiles.length = w.tiles.length := by
  induction n with
  | zero => rfl
  | succ n ih =>
    rw [Written.writeTiles, ← ih]
    generalize w.writeTiles i tiles image n = u
    unfold Written.write
    split
    · rfl
    · split <;> simp

theorem writeImages_length (wt : Nat) (l : List (BandPart × List Nat × Nat)) (tiles : List Tile)
    (pixels : List (Option TilePixels)) : (writeImages wt tiles pixels l).1.length = tiles.length := by
  induction l generalizing tiles pixels with
  | nil => rfl
  | cons q l ih =>
    obtain ⟨p, image, n⟩ := q
    exact (ih _ _).trans (writeTiles_length ..)

theorem mem_renderParts (s : State) (ps : List BandPart) (q : BandPart × List Nat × Nat) :
    q ∈ (s.renderParts ps).2 ↔ ∃ p ∈ ps, q = (p, (s.renderFields p.fields).1, fieldTiles p.fields) := by
  induction ps with
  | nil => simp [State.renderParts]
  | cons p ps ih => simp [State.renderParts, ih, renderFields_tiles]

/-! ### The parts of the bands (R73, R82 to R87) -/

theorem mem_departureParts (c : ConfigRecord) (wt k : Nat) (rows : List RowRecord) (es : List Entry) (p : BandPart) :
    p ∈ departureParts c wt k rows es ↔ ∃ j r, rows[j]? = some r ∧ p = ⟨k + j, 0, rowFields c wt r es[j]?⟩ := by
  induction rows generalizing k es with
  | nil => simp [departureParts]
  | cons r rows ih =>
    have shift (es' : List Entry) (he : ∀ j, es'[j]? = es[j + 1]?) :
        (∃ j x, rows[j]? = some x ∧ p = ⟨k + 1 + j, 0, rowFields c wt x es'[j]?⟩) ↔
          ∃ j x, (r :: rows)[j + 1]? = some x ∧ p = ⟨k + (j + 1), 0, rowFields c wt x es[j + 1]?⟩ := by
      simp [he, Nat.add_assoc, Nat.add_comm 1]
    have split (q : Nat → Prop) : (∃ j, q j) ↔ q 0 ∨ ∃ j, q (j + 1) :=
      ⟨fun ⟨j, h⟩ => by cases j with | zero => exact .inl h | succ j => exact .inr ⟨j, h⟩,
        fun h => h.elim (fun h => ⟨0, h⟩) fun ⟨j, h⟩ => ⟨j + 1, h⟩⟩
    rw [split]
    cases es with
    | nil => rw [departureParts, List.mem_cons, ih, shift [] (by simp)]; simp
    | cons e es => rw [departureParts, List.mem_cons, ih, shift es (by simp)]; simp

/-- The fields of a departure row are those its record and the entry at its position give (R76, R82 to R84). -/
theorem rowFields_eq {s : State} {j : Nat} {r : RowRecord} (h : s.composer.rows[j]? = some r) (hj : j + 2 < s.tiles.ht) :
    rowFields s.cfg s.tiles.wt r s.board.entries[j]? = s.fieldsAt (j + 1) := by
  simp only [State.fieldsAt, Nat.add_one_ne_zero, if_false, Nat.add_sub_cancel, h, if_neg (show ¬j + 1 + 1 = s.tiles.ht by omega)]
  cases r with
  | message m => cases m <;> cases s.board.entries[j]? <;> rfl
  | empty => cases s.board.entries[j]? <;> rfl
  | countdown k v p => cases s.board.entries[j]? <;> simp [rowFields, ConfigRecord.countdownContent, decimal_eq]
  | clockTime k m =>
    cases s.board.entries[j]? <;> simp [rowFields, ConfigRecord.countdownContent, decimal_eq, clockCodes_eq]
  | due k => cases s.board.entries[j]? <;> simp [rowFields, ConfigRecord.countdownContent, decimal_eq]
  | cancelled k => cases s.board.entries[j]? <;> simp [rowFields, ConfigRecord.countdownContent, decimal_eq]

/-- The fields of the header band (R85). -/
theorem headerFields_eq (s : State) :
    [⟨.text (s.cfg.param 3), s.tiles.wt - 2, false⟩, ⟨s.clockContent, 2, true⟩] = s.fieldsAt 0 := by
  simp only [State.fieldsAt, if_true, State.clockContent, ClockTime.wallMinute, ClockTime.wallSecond, clockCodes_eq]
  cases s.clock.time with
  | none => rfl
  | some u => simp

/-- The field of the notice band (R86, R111). -/
theorem noticeFields_eq {s : State} (h : 2 ≤ s.tiles.ht) :
    [⟨s.noticeContent, s.tiles.wt, false⟩] = s.fieldsAt (s.tiles.ht - 1) := by
  have e : s.notices.shown = s.notices.list.find? fun n => some n.id == s.notices.position := by
    unfold Notices.shown
    cases s.notices.position with
    | none => exact (List.find?_eq_none.2 (by simp)).symm
    | some i => simp
  simp only [State.fieldsAt, State.noticeContent, e, if_neg (show ¬s.tiles.ht - 1 = 0 by omega),
    if_pos (show s.tiles.ht - 1 + 1 = s.tiles.ht by omega)]
  all_goals cases s.notices.list.find? fun n => some n.id == s.notices.position <;> rfl

/-- The fields of a tile row fill its width, and each is at least two tiles wide (R73). -/
theorem fieldsAt_tiles {s : State} (h : 6 ≤ s.tiles.wt) (y : Nat) :
    fieldTiles (s.fieldsAt y) = s.tiles.wt ∧ ∀ f ∈ s.fieldsAt y, 2 ≤ f.tiles := by
  unfold State.fieldsAt
  simp only
  repeat' split
  all_goals (simp [fieldTiles]; omega)

/-- The field of a column. -/
theorem field_at (fs : List Field) (c : Nat) (h : c < fieldTiles fs) :
    ∃ before f after, fs = before ++ f :: after ∧ fieldTiles before ≤ c ∧ c < fieldTiles before + f.tiles := by
  induction fs generalizing c with
  | nil => simp [fieldTiles] at h
  | cons g fs ih =>
    by_cases k : c < g.tiles
    · exact ⟨[], g, fs, rfl, Nat.zero_le _, by simpa [fieldTiles] using k⟩
    · obtain ⟨a, f, b, rfl, l, r⟩ := ih (c - g.tiles) (by simp only [fieldTiles, List.map_cons, List.sum_cons] at h ⊢; omega)
      refine ⟨g :: a, f, b, rfl, ?_, ?_⟩ <;> simp only [fieldTiles, List.map_cons, List.sum_cons] at l r ⊢ <;> omega

/-- A tile cut from the fields of a row that stand from a column on has its image (R90). -/
theorem tileAt_imageAt {s : State} (hg : s.glyphsSound) (hw : 6 ≤ s.tiles.wt) {y c : Nat} {left fs : List Field}
    (hy : s.fieldsAt y = left ++ fs) (hl : fieldTiles left ≤ c) (hc : c < s.tiles.wt) :
    s.imageAt (y * s.tiles.wt + c) (tileAt (fieldTiles fs) (s.renderFields fs).1 (c - fieldTiles left)) := by
  have ht := fieldsAt_tiles hw y
  have sum : fieldTiles left + fieldTiles fs = s.tiles.wt := by
    rw [← ht.1, hy]
    simp [fieldTiles]
  obtain ⟨a, f, b, rfl, l, r⟩ := field_at fs (c - fieldTiles left) (by omega)
  have e1 : (y * s.tiles.wt + c) / s.tiles.wt = y := by
    rw [Nat.mul_comm, Nat.mul_add_div (by omega), Nat.div_eq_of_lt hc, Nat.add_zero]
  have e2 : (y * s.tiles.wt + c) % s.tiles.wt = c := by
    rw [Nat.mul_comm, Nat.mul_add_mod, Nat.mod_eq_of_lt hc]
  have e3 : ((left ++ a).map (·.tiles)).sum = fieldTiles left + fieldTiles a := by simp [fieldTiles]
  refine ⟨left ++ a, f, b, by rw [e1, hy, List.append_assoc], ?_⟩
  simp only [e2, e3]
  refine ⟨by omega, by omega, fun p x hp hx => ?_⟩
  rw [tileAt_pixel (renderFields_length s _) (by omega) hp hx,
    renderFields_pixel hg a f b (fun z hz => ht.2 z (by simp [hy]; simp at hz; simp [hz])) l r hx]
  congr 1
  omega

/-! ### A recomposition (R87, R90, R91) -/

/-- Every part of the bands is made of the fields of its tile row from its column on (R73, R82 to R86). -/
theorem bandParts_fields {s : State} (h : s.composer.rows.length = s.tiles.ht - 2) (hh : 3 ≤ s.tiles.ht) {b : Bands}
    {p : BandPart} (hp : p ∈ s.bandParts b) :
    p.row < s.tiles.ht ∧ ∃ left, s.fieldsAt p.row = left ++ p.fields ∧ fieldTiles left = p.col := by
  simp only [State.bandParts, List.mem_append] at hp
  rcases hp with (hp | hp) | hp
  · cases hb : b.header <;> simp only [hb, List.not_mem_nil, List.mem_singleton] at hp
    · subst hp
      exact ⟨by simp only; omega, [⟨.text (s.cfg.param 3), s.tiles.wt - 2, false⟩], (headerFields_eq s).symm, by simp [fieldTiles]⟩
    · subst hp
      exact ⟨by simp only; omega, [], (headerFields_eq s).symm, rfl⟩
  · split at hp
    · obtain ⟨j, r, hr, rfl⟩ := (mem_departureParts ..).1 hp
      have hj := (List.getElem?_eq_some_iff.1 hr).1
      refine ⟨by simp only; omega, [], ?_, rfl⟩
      rw [List.nil_append, Nat.add_comm 1 j, rowFields_eq hr (by omega)]
    · simp at hp
  · split at hp
    · rw [List.mem_singleton] at hp
      subst hp
      exact ⟨by simp only; omega, [], (noticeFields_eq (by omega)).symm, rfl⟩
    · simp at hp

theorem row_col {wt y c : Nat} (h : c < wt) : (y * wt + c) / wt = y ∧ (y * wt + c) % wt = c := by
  rw [Nat.mul_comm, Nat.mul_add_div (by omega), Nat.div_eq_of_lt h, Nat.mul_add_mod, Nat.mod_eq_of_lt h]
  exact ⟨rfl, rfl⟩

/-- The parts of the bands cover exactly the tiles of the bands (R87, R90). -/
theorem bandParts_cover {s : State} (h : s.composer.rows.length = s.tiles.ht - 2) (hh : 3 ≤ s.tiles.ht) (hw : 6 ≤ s.tiles.wt)
    (b : Bands) (i : Nat) :
    (∃ p ∈ s.bandParts b, p.row * s.tiles.wt + p.col ≤ i ∧ i < p.row * s.tiles.wt + p.col + fieldTiles p.fields) ↔
      b.cover s.tiles.wt s.tiles.ht i := by
  have hc : i % s.tiles.wt < s.tiles.wt := Nat.mod_lt _ (by omega)
  have hi : i / s.tiles.wt * s.tiles.wt + i % s.tiles.wt = i := Nat.div_add_mod' i s.tiles.wt
  have key : ∀ p ∈ s.bandParts b, (p.row * s.tiles.wt + p.col ≤ i ∧ i < p.row * s.tiles.wt + p.col + fieldTiles p.fields) ↔
      i / s.tiles.wt = p.row ∧ p.col ≤ i % s.tiles.wt := fun p hp => by
    obtain ⟨-, left, e, l⟩ := bandParts_fields h hh hp
    have t := (fieldsAt_tiles hw p.row).1
    rw [e, show fieldTiles (left ++ p.fields) = fieldTiles left + fieldTiles p.fields by simp [fieldTiles], l] at t
    constructor
    · rintro ⟨a, c⟩
      obtain ⟨x, hx⟩ := Nat.exists_eq_add_of_le a
      have := row_col (y := p.row) (c := p.col + x) (wt := s.tiles.wt) (by omega)
      rw [← Nat.add_assoc, ← hx] at this
      omega
    · rintro ⟨a, c⟩
      rw [← a]
      omega
  have only : (∃ p ∈ s.bandParts b, p.row * s.tiles.wt + p.col ≤ i ∧ i < p.row * s.tiles.wt + p.col + fieldTiles p.fields) ↔
      ∃ p ∈ s.bandParts b, i / s.tiles.wt = p.row ∧ p.col ≤ i % s.tiles.wt :=
    ⟨fun ⟨p, hp, k⟩ => ⟨p, hp, (key p hp).1 k⟩, fun ⟨p, hp, k⟩ => ⟨p, hp, (key p hp).2 k⟩⟩
  rw [only]
  simp only [State.bandParts, List.mem_append]
  constructor
  · rintro ⟨p, (hp | hp) | hp, k⟩
    · cases hb : b.header <;> simp only [hb, List.not_mem_nil, List.mem_singleton] at hp <;> subst hp
      · exact .inl ⟨k.1, .inr ⟨hb, k.2⟩⟩
      · exact .inl ⟨k.1, .inl hb⟩
    · split at hp
      · obtain ⟨j, r, hr, rfl⟩ := (mem_departureParts ..).1 hp
        have hj := (List.getElem?_eq_some_iff.1 hr).1
        simp only at k
        exact .inr (.inl ⟨‹_›, by omega, by omega⟩)
      · simp at hp
    · split at hp
      · rw [List.mem_singleton] at hp
        subst hp
        simp only at k
        exact .inr (.inr ⟨‹_›, by omega⟩)
      · simp at hp
  · rintro (⟨e, hb | ⟨hb, k⟩⟩ | ⟨hb, k, l⟩ | ⟨hb, k⟩)
    · exact ⟨_, .inl (.inl (by rw [hb]; exact List.mem_singleton_self _)), e, Nat.zero_le _⟩
    · exact ⟨_, .inl (.inl (by rw [hb]; exact List.mem_singleton_self _)), e, k⟩
    · have hr : s.composer.rows[i / s.tiles.wt - 1]? = some (s.composer.rows[i / s.tiles.wt - 1]'(by omega)) :=
        List.getElem?_eq_getElem _
      refine ⟨_, .inl (.inr (by rw [if_pos hb]; exact (mem_departureParts ..).2 ⟨_, _, hr, rfl⟩)), ?_, Nat.zero_le _⟩
      simp only
      omega
    · exact ⟨_, .inr (by rw [if_pos hb]; exact List.mem_singleton_self _), by simp only; omega, Nat.zero_le _⟩

/-- Two states that an image does not tell apart. -/
structure SameSight (s t : State) : Prop where
  flash : t.flash = s.flash
  presence : t.presence = s.presence
  cfg : t.cfg = s.cfg
  clock : t.clock = s.clock
  board : t.board = s.board
  notices : t.notices = s.notices
  conserve : t.energy.conserve = s.energy.conserve
  rows : t.composer.rows = s.composer.rows
  wt : t.tiles.wt = s.tiles.wt
  ht : t.tiles.ht = s.tiles.ht

theorem PanelWork.sameSight {s t : State} (h : PanelWork s t) (r : t.composer.rows = s.composer.rows)
    (w : t.tiles.wt = s.tiles.wt) (k : t.tiles.ht = s.tiles.ht) : SameSight s t :=
  ⟨h.flash, h.presence, h.cfg, h.clock, h.board, h.notices, by rw [h.energy], r, w, k⟩

theorem SameSight.fieldsAt {s t : State} (h : SameSight s t) (y : Nat) : t.fieldsAt y = s.fieldsAt y := by
  simp only [State.fieldsAt, h.cfg, h.clock, h.board, h.notices, h.conserve, h.rows, h.wt, h.ht]

theorem SameSight.renderField {s t : State} (h : SameSight s t) (f : Field) : t.renderField f = s.renderField f := by
  have a : t.textCodes = s.textCodes := by funext i; simp only [State.textCodes, h.flash, h.presence]
  have b : t.glyphEntry = s.glyphEntry := by funext i; simp only [State.glyphEntry, h.flash, h.presence]
  have c : t.contentCodes = s.contentCodes := by funext x; cases x <;> simp only [State.contentCodes, a]
  have d : t.resolve = s.resolve := by funext i; simp only [State.resolve, b]
  have e : t.glyphAbsent = s.glyphAbsent := by funext i; simp only [State.glyphAbsent, b]
  simp only [State.renderField, c, d, e]

theorem SameSight.imageAt {s t : State} (h : SameSight s t) (i : Nat) (px : TilePixels) : t.imageAt i px ↔ s.imageAt i px := by
  simp only [State.imageAt, h.fieldsAt, h.renderField, h.wt]

/-- A tile that wants its image goes on wanting it where neither the image nor its wanted signature changes. -/
theorem wantsItsImage_of_same {s t : State} (h : SameSight s t) {i : Nat}
    (k : (t.tiles.tiles.map (·.wanted))[i]? = (s.tiles.tiles.map (·.wanted))[i]?) (w : s.wantsItsImage i) :
    t.wantsItsImage i := by
  obtain ⟨x, px, hx, hi, hw⟩ := w
  simp only [List.getElem?_map, hx, Option.map_some, Option.map_eq_some_iff] at k
  obtain ⟨y, hy, e⟩ := k
  exact ⟨y, px, hy, (h.imageAt i px).2 hi, e.trans hw⟩

/-- A tile outside the notice band does not tell the notices apart (R86). -/
theorem imageAt_notices (s : State) (n : Notices) {i : Nat} (h : i / s.tiles.wt + 1 ≠ s.tiles.ht) (px : TilePixels) :
    State.imageAt { s with notices := n } i px ↔ s.imageAt i px := by
  have e : State.fieldsAt { s with notices := n } (i / s.tiles.wt) = s.fieldsAt (i / s.tiles.wt) := by
    simp only [State.fieldsAt, if_neg h]
  simp only [State.imageAt, e]
  rfl

/-- Everything a composition does to the wanted signatures: a covered tile wants its image, and every other keeps its own
(R87, R90, R91). -/
theorem compose_wanted {s : State} (hi : s.imageSound) (hg : s.glyphsSound) (hw : 6 ≤ s.tiles.wt) (hh : 3 ≤ s.tiles.ht)
    (b : Bands) :
    (s.compose b).1.tiles.tiles.length = s.tiles.tiles.length ∧
    ∀ i, i < s.tiles.wt * s.tiles.ht →
      (b.cover s.tiles.wt s.tiles.ht i → (s.compose b).1.wantsItsImage i) ∧
      (¬b.cover s.tiles.wt s.tiles.ht i → (s.compose b).1.tiles.tiles[i]? = s.tiles.tiles[i]?) := by
  have wt1 : (s.evaluated b).tiles = s.tiles := by unfold State.evaluated; split <;> rfl
  have rows1 : (s.evaluated b).composer.rows.length = (s.evaluated b).tiles.ht - 2 := by
    rw [wt1, ← hi.2.2.1]
    unfold State.evaluated
    split
    · exact evaluate_length s
    · rfl
  have sound1 : (s.evaluated b).glyphsSound := by
    unfold State.evaluated
    split <;> exact hg
  have out : (s.compose b).1.tiles.tiles = (writeImages (s.evaluated b).tiles.wt (s.evaluated b).tiles.tiles
      (s.evaluated b).composer.pixels ((s.evaluated b).renderParts ((s.evaluated b).bandParts b)).2).1 := rfl
  have same : SameSight (s.evaluated b) (s.compose b).1 := by
    refine ((raiseAll_panelWork _ _).trans (keepWritten_panelWork _ _ _)).sameSight ?_ ?_ ?_ <;>
      simp [State.keepWritten]
  generalize s.evaluated b = u at *
  rw [← wt1] at hw hh ⊢
  refine ⟨by rw [out, writeImages_length], fun i k => ?_⟩
  have len : i < u.tiles.tiles.length := by rw [wt1, hi.1, ← wt1]; exact k
  have w := writeImages_tile u.tiles.wt (u.renderParts (u.bandParts b)).2 u.tiles.tiles u.composer.pixels i _
    (List.getElem?_eq_getElem len)
  have cov := bandParts_cover rows1 hh hw b i
  constructor
  · intro c
    obtain ⟨p, hp, c⟩ := cov.2 c
    obtain ⟨q, hq, hc, y, hy, e⟩ := w.2 ⟨_, (mem_renderParts ..).2 ⟨p, hp, rfl⟩, c⟩
    obtain ⟨p, hp, rfl⟩ := (mem_renderParts ..).1 hq
    obtain ⟨-, left, hl, ht⟩ := bandParts_fields rows1 hh hp
    have sum := (fieldsAt_tiles hw p.row).1
    rw [hl, show fieldTiles (left ++ p.fields) = fieldTiles left + fieldTiles p.fields by simp [fieldTiles], ht] at sum
    simp only [partCovers] at hc e
    obtain ⟨x, hx⟩ := Nat.exists_eq_add_of_le hc.1
    have im := tileAt_imageAt sound1 hw (c := p.col + x) hl (by omega) (by omega)
    rw [← Nat.add_assoc, ← hx, ht, show p.col + x - p.col = i - (p.row * u.tiles.wt + p.col) by omega] at im
    exact ⟨y, _, out ▸ hy, (same.imageAt ..).2 im, e⟩
  · intro c
    rw [out, w.1 fun q hq hc => ?_, List.getElem?_eq_getElem len]
    obtain ⟨p, hp, rfl⟩ := (mem_renderParts ..).1 hq
    exact c (cov.1 ⟨p, hp, hc⟩)

theorem queueSpan_wanted (tm : TileMap) (b : JobClass) (o : List Job) (r f l : Nat) :
    (tm.queueSpan b o r f l).tiles.map (·.wanted) = tm.tiles.map (·.wanted) := by
  suffices ∀ (f : Nat → Tile → Tile), (∀ i t, (f i t).wanted = t.wanted) → ∀ n l, (mapTiles f n l).map (·.wanted) = l.map (·.wanted) from
    this _ (fun i t => by split <;> rfl) _ _
  intro f hf n l
  induction l generalizing n with
  | nil => rfl
  | cons t l ih => simp [mapTiles, hf, ih]

/-- Formation of a row changes no wanted signature (R120 to R123). -/
theorem formRow_wanted (tm : TileMap) (b : JobClass) (r : Nat) :
    (tm.formRow b r).1.tiles.map (·.wanted) = tm.tiles.map (·.wanted) := by
  have spans (o : List Job) (l : List (Nat × Nat)) (u : TileMap) :
      (TileMap.queueSpans b o r u l).tiles.map (·.wanted) = u.tiles.map (·.wanted) := by
    induction l generalizing u with
    | nil => rfl
    | cons x l ih =>
      unfold TileMap.queueSpans
      split
      · exact (ih _).trans (queueSpan_wanted ..)
      · rfl
  unfold TileMap.formRow
  split
  · rfl
  · refine (spans ..).trans ?_
    simp only [TileMap.removeJobs, List.map_map]
    refine List.map_congr_left fun t _ => ?_
    simp only [Function.comp]
    split
    · rfl
    · split <;> rfl

/-- A grant attempt changes no wanted signature and nothing that an image shows, while no change of size is pending. -/
theorem GrantWork.sight {s t : State} (h : GrantWork s t) :
    SameSight s t ∧ t.tiles.tiles.map (·.wanted) = s.tiles.tiles.map (·.wanted) :=
  ⟨h.toPanelWork.sameSight (congrArg Composer.rows h.composer) h.wt h.ht, by rw [h.tiles]⟩

theorem SameSight.trans {s t u : State} (h : SameSight s t) (k : SameSight t u) : SameSight s u :=
  ⟨k.flash.trans h.flash, k.presence.trans h.presence, k.cfg.trans h.cfg, k.clock.trans h.clock, k.board.trans h.board,
    k.notices.trans h.notices, k.conserve.trans h.conserve, k.rows.trans h.rows, k.wt.trans h.wt, k.ht.trans h.ht⟩

/-- Hand-overs change no wanted signature and nothing that an image shows, while no change of size is pending (R120). -/
theorem handOverAll_sight (l : List Nat) {s : State} (h : s.sizeDiffers = false) :
    SameSight s (s.handOverAll l) ∧ (s.handOverAll l).tiles.tiles.map (·.wanted) = s.tiles.tiles.map (·.wanted) := by
  induction l generalizing s with
  | nil => exact ⟨⟨rfl, rfl, rfl, rfl, rfl, rfl, rfl, rfl, rfl, rfl⟩, rfl⟩
  | cons r l ih =>
    have one : SameSight s (s.handOver r) ∧ (s.handOver r).tiles.tiles.map (·.wanted) = s.tiles.tiles.map (·.wanted) := by
      have g := formRow_geometry s.tiles s.notices.jobClass r
      have a : SameSight s (s.setTiles (s.tiles.formRow s.notices.jobClass r).1) :=
        (setTiles_panelWork s _ (formRow_elapsed _ _ _)).sameSight rfl g.1 g.2
      have w := formRow_wanted s.tiles s.notices.jobClass r
      have hz : (s.setTiles (s.tiles.formRow s.notices.jobClass r).1).sizeDiffers = false := by
        simpa [State.sizeDiffers, State.setTiles, g.1, g.2] using h
      unfold State.handOver
      simp only
      split
      · have k := (noteAttempt_grantWork hz).sight
        exact ⟨a.trans k.1, k.2.trans w⟩
      · exact ⟨a, w⟩
    have k := ih (handOver_rows h r).2
    exact ⟨one.1.trans k.1, k.2.trans one.2⟩

/-- Everything a recomposition does to the wanted signatures, while no change of size is pending: a covered tile wants its image, and
every other keeps its own (R87, R90, R91). -/
theorem recompose_wanted {s : State} (hi : s.imageSound) (hg : s.glyphsSound) (hz : s.sizeDiffers = false) (hw : 6 ≤ s.tiles.wt)
    (hh : 3 ≤ s.tiles.ht) (b : Bands) :
    (s.recompose b).tiles.tiles.length = s.tiles.tiles.length ∧
    ∀ i, i < s.tiles.wt * s.tiles.ht →
      (b.cover s.tiles.wt s.tiles.ht i → (s.recompose b).wantsItsImage i) ∧
      (¬b.cover s.tiles.wt s.tiles.ht i →
        ((s.recompose b).tiles.tiles.map (·.wanted))[i]? = (s.tiles.tiles.map (·.wanted))[i]?) := by
  have geo := compose_geometry s b
  have hz' : (s.compose b).1.sizeDiffers = false := by
    simpa [State.sizeDiffers, (compose_panelWork s b).cfg, geo.1, geo.2] using hz
  have k := handOverAll_sight (s.compose b).2 hz'
  have c := compose_wanted hi hg hw hh b
  have len := congrArg List.length k.2
  simp only [List.length_map] at len
  refine ⟨len.trans c.1, fun i h => ⟨fun v => wantsItsImage_of_same k.1 (by rw [k.2]) ((c.2 i h).1 v), fun v => ?_⟩⟩
  rw [State.recompose, k.2, List.getElem?_map, List.getElem?_map, (c.2 i h).2 v]

end Sys2Proof.Machine
end

