-- ==== Sys2Proof/Laws/Notices.lean ====
section
/-! SUPPORT. The Notice List's decision: the top set, and what a decision makes of the position and the rotation timer. -/

namespace Sys2Proof.Machine

/-- The lowest priority number present stands in the list, and none lies below it (R111). -/
theorem topPriority_spec (l : List Notice) :
    (l = [] ∧ topPriority l = none) ∨
      ∃ n ∈ l, topPriority l = some n.priority ∧ ∀ x ∈ l, n.priority ≤ x.priority := by
  induction l with
  | nil => exact .inl ⟨rfl, rfl⟩
  | cons a l ih =>
    refine .inr ?_
    rcases ih with ⟨rfl, h⟩ | ⟨n, hn, h, low⟩
    · exact ⟨a, by simp, by simp [topPriority], by simp⟩
    · by_cases k : a.priority ≤ n.priority
      · exact ⟨a, by simp, by simp [topPriority, h, k], by
          simp only [List.mem_cons, forall_eq_or_imp]
          exact ⟨Nat.le_refl _, fun x hx => Nat.le_trans k (low x hx)⟩⟩
      · exact ⟨n, by simp [hn], by simp [topPriority, h]; omega, by
          simp only [List.mem_cons, forall_eq_or_imp]
          exact ⟨by omega, low⟩⟩

/-- The decision's top set is the set of the notices that no notice of the list goes above (R111). -/
theorem topSet_eq (l : List Notice) : topSet l = topOf l := by
  rcases topPriority_spec l with ⟨rfl, -⟩ | ⟨n, hn, h, low⟩
  · rfl
  · refine List.filter_congr fun x hx => ?_
    rw [Bool.eq_iff_iff]
    simp only [h, beq_iff_eq, Option.some.injEq, List.all_eq_true, decide_eq_true_eq]
    exact ⟨fun e y hy => e ▸ low y hy, fun le => Nat.le_antisymm (le n hn) (low x hx)⟩

/-- The top priority is that of the first notice of the top set (R111). -/
theorem topPriority_eq (l : List Notice) : topPriority l = (topIds l).head?.map (·.2) := by
  rcases topPriority_spec l with ⟨rfl, h⟩ | ⟨n, hn, h, low⟩
  · exact h
  · have hne : n ∈ topOf l := by simp [topOf, hn]; exact low
    cases ht : topOf l with
    | nil => simp [ht] at hne
    | cons a as =>
      have ha : a ∈ topOf l := by simp [ht]
      simp only [topOf, List.mem_filter, List.all_eq_true, decide_eq_true_eq] at ha
      simp [topIds, ht, h, Nat.le_antisymm (low a ha.1) (ha.2 n hn)]

/-- A decision sees a change of the top set exactly when its ids or its priority changed (R112). -/
theorem topView_eq_iff (a b : Notices) : a.topView = b.topView ↔ topIds a.list = topIds b.list := by
  have ids (l : List Notice) : (topSet l).map (·.id) = (topIds l).map (·.1) := by simp [topSet_eq, topIds]
  simp only [Notices.topView, topPriority_eq, ids]
  refine ⟨fun h => ?_, fun h => by rw [h]⟩
  have same (l : List Notice) (x : Nat × Nat) (hx : x ∈ topIds l) : some x.2 = (topIds l).head?.map (·.2) := by
    simp only [topIds, List.mem_map] at hx
    obtain ⟨n, hn, rfl⟩ := hx
    rw [← topPriority_eq]
    rw [← topSet_eq] at hn
    simpa [topSet] using (List.mem_filter.1 hn).2
  have h1 := congrArg Prod.fst h
  have h2 := congrArg Prod.snd h
  simp only at h1 h2
  refine List.ext_getElem? fun i => ?_
  have h3 := congrArg (·[i]?) h2
  simp only [List.getElem?_map] at h3
  cases hx : (topIds a.list)[i]? with
  | none =>
    rw [hx] at h3
    exact (Option.map_eq_none_iff.1 h3.symm).symm
  | some x =>
    cases hy : (topIds b.list)[i]? with
    | none => simp [hx, hy] at h3
    | some y =>
      have e1 := same _ _ (List.mem_of_getElem? hx)
      have e2 := same _ _ (List.mem_of_getElem? hy)
      rw [h1, ← e2] at e1
      simp only [hx, hy, Option.map_some, Option.some.injEq] at h3 e1
      rw [Prod.ext h3 e1]

/-- Everything a decision does (R111, R112). -/
theorem decideNotices_decided (s : State) (l : List Notice) :
    let t := (s.decideNotices l).1
    t = { s with notices := t.notices, timers := { s.timers with rotation := t.timers.rotation } } ∧
      t.notices.list = l ∧ NoticesDecided s.notices t.notices s.timers.rotation t.timers.rotation := by
  have view := topView_eq_iff s.notices (Notices.decided { s.notices with list := l })
  have any : (topSet l).any (fun x => some x.id == s.notices.position) = true ↔
      ∃ n ∈ topOf l, s.notices.position = some n.id := by
    rw [topSet_eq, List.any_eq_true]
    exact exists_congr fun n => and_congr_right fun _ => beq_iff_eq.trans eq_comm
  refine ⟨?_, rfl, fun h => ?_, fun h => ?_, fun h => ?_, fun h => ?_⟩
  · simp only [State.decideNotices]
    split <;> rfl
  · exact if_pos (any.2 h)
  · exact (if_neg fun k => h (any.1 k)).trans (by rw [topSet_eq]; rfl)
  · simp only [State.decideNotices, if_pos (view.2 h.symm)]
  · simp only [State.decideNotices, if_neg fun k => h (view.1 k).symm]
    rfl

end Sys2Proof.Machine
end

