-- ==== Sys2Proof/WellFormed.lean ====
section
/-! DEFINITION. Which commands are well formed. -/

namespace Sys2Proof

/-- FRAME_RECEIVED brings at least one byte and at most the 246 bytes of the longest frame (12 R183); every
other operand may take any value of its type (readings saturate, R136; any answer is compared, R170). -/
def Instr.wellFormed : Instr → Bool
  | .frameReceived bytes => 1 ≤ bytes.length && bytes.length ≤ 246
  | _ => true

end Sys2Proof
end

