-- ==== Sys2Proof/Laws/PerInstr.lean ====
section
/-! SUPPORT. The per-command family RequestKind: a command that takes a request takes one of the 19 kinds of R186, and is well
formed. -/

namespace Sys2Proof.Laws.RequestKind

/-- A command that takes a request takes a known kind, and is well formed whatever the request carries (R186). -/
def Statement (i : Instr) : Prop := ∀ k, i.requestKind = some k → Machine.kindKnown k = true ∧ i.wellFormed = true

theorem frameReceived (bytes : List Byte) : Statement (.frameReceived bytes) := nofun
theorem frameGapTimeout : Statement .frameGapTimeout := nofun
theorem framingError : Statement .framingError := nofun
theorem badKind : Statement .badKind := nofun
theorem status : Statement .status := by rintro k ⟨⟩; decide
theorem timeSet : Statement .timeSet := by rintro k ⟨⟩; decide
theorem configSet : Statement .configSet := by rintro k ⟨⟩; decide
theorem configWriteEnd (verified : Bool) : Statement (.configWriteEnd verified) := nofun
theorem configGet : Statement .configGet := by rintro k ⟨⟩; decide
theorem windowSet : Statement .windowSet := by rintro k ⟨⟩; decide
theorem windowWriteEnd (verified : Bool) : Statement (.windowWriteEnd verified) := nofun
theorem uploadBegin : Statement .uploadBegin := by rintro k ⟨⟩; decide
theorem bankEraseEnd (verified : Bool) : Statement (.bankEraseEnd verified) := nofun
theorem fillingHeaderWriteEnd (verified : Bool) : Statement (.fillingHeaderWriteEnd verified) := nofun
theorem tripBlock : Statement .tripBlock := by rintro k ⟨⟩; decide
theorem tripBlockWriteEnd (verified : Bool) : Statement (.tripBlockWriteEnd verified) := nofun
theorem uploadCommit : Statement .uploadCommit := by rintro k ⟨⟩; decide
theorem commitHeaderWriteEnd (verified : Bool) : Statement (.commitHeaderWriteEnd verified) := nofun
theorem uploadAbort : Statement .uploadAbort := by rintro k ⟨⟩; decide
theorem uploadIdleTimeout : Statement .uploadIdleTimeout := nofun
theorem predict : Statement .predict := by rintro k ⟨⟩; decide
theorem noticePost : Statement .noticePost := by rintro k ⟨⟩; decide
theorem noticeWithdraw : Statement .noticeWithdraw := by rintro k ⟨⟩; decide
theorem textPut : Statement .textPut := by rintro k ⟨⟩; decide
theorem textWriteEnd (verified : Bool) : Statement (.textWriteEnd verified) := nofun
theorem glyphPut : Statement .glyphPut := by rintro k ⟨⟩; decide
theorem glyphWriteEnd (verified : Bool) : Statement (.glyphWriteEnd verified) := nofun
theorem boardRead : Statement .boardRead := by rintro k ⟨⟩; decide
theorem faultRead : Statement .faultRead := by rintro k ⟨⟩; decide
theorem faultClear : Statement .faultClear := by rintro k ⟨⟩; decide
theorem cleanNow : Statement .cleanNow := by rintro k ⟨⟩; decide
theorem reset : Statement .reset := by rintro k ⟨⟩; decide
theorem requestReset : Statement .requestReset := nofun
theorem secondEvent : Statement .secondEvent := nofun
theorem sweep : Statement .sweep := nofun
theorem supplySample (millivolts celsius : Int) : Statement (.supplySample millivolts celsius) := nofun
theorem rotation : Statement .rotation := nofun
theorem riseExpiry (bgood : Bool) : Statement (.riseExpiry bgood) := nofun
theorem retryPauseExpiry : Statement .retryPauseExpiry := nofun
theorem lingerExpiry : Statement .lingerExpiry := nofun
theorem frameEnd : Statement .frameEnd := nofun
theorem identityExchange (answer : Option (Byte × Byte)) : Statement (.identityExchange answer) := nofun
theorem brownout : Statement .brownout := nofun
theorem supplyLevelRise : Statement .supplyLevelRise := nofun
theorem powerOnReset (br1 br0 above : Bool) (millivolts celsius : Int) : Statement (.powerOnReset br1 br0 above millivolts celsius) := nofun
theorem lineResetAssert : Statement .lineResetAssert := nofun
theorem lineResetRelease (br1 br0 above : Bool) (millivolts celsius : Int) : Statement (.lineResetRelease br1 br0 above millivolts celsius) := nofun
theorem powerLoss : Statement .powerLoss := nofun
theorem elapsedSecond : Statement .elapsedSecond := nofun
theorem replySent : Statement .replySent := nofun

end Sys2Proof.Laws.RequestKind
end

