-- ==== Sys2Proof/Laws/State.lean ====
section
/-! SUPPORT. One lemma for each field under each update of the state. -/

namespace Sys2Proof.Machine

/-! ### setBoard -/

@[simp] theorem State.setBoard_phase (s : State) (x : Board) : (s.setBoard x).phase = s.phase := rfl
@[simp] theorem State.setBoard_lineLow (s : State) (x : Board) : (s.setBoard x).lineLow = s.lineLow := rfl
@[simp] theorem State.setBoard_link (s : State) (x : Board) : (s.setBoard x).link = s.link := rfl
@[simp] theorem State.setBoard_flash (s : State) (x : Board) : (s.setBoard x).flash = s.flash := rfl
@[simp] theorem State.setBoard_presence (s : State) (x : Board) : (s.setBoard x).presence = s.presence := rfl
@[simp] theorem State.setBoard_cfg (s : State) (x : Board) : (s.setBoard x).cfg = s.cfg := rfl
@[simp] theorem State.setBoard_store (s : State) (x : Board) : (s.setBoard x).store = s.store := rfl
@[simp] theorem State.setBoard_resetRoles (s : State) (x : Board) : (s.setBoard x).resetRoles = s.resetRoles := rfl
@[simp] theorem State.setBoard_clock (s : State) (x : Board) : (s.setBoard x).clock = s.clock := rfl
@[simp] theorem State.setBoard_timers (s : State) (x : Board) : (s.setBoard x).timers = s.timers := rfl
@[simp] theorem State.setBoard_board (s : State) (x : Board) : (s.setBoard x).board = x := rfl
@[simp] theorem State.setBoard_composer (s : State) (x : Board) : (s.setBoard x).composer = s.composer := rfl
@[simp] theorem State.setBoard_notices (s : State) (x : Board) : (s.setBoard x).notices = s.notices := rfl
@[simp] theorem State.setBoard_tiles (s : State) (x : Board) : (s.setBoard x).tiles = s.tiles := rfl
@[simp] theorem State.setBoard_energy (s : State) (x : Board) : (s.setBoard x).energy = s.energy := rfl
@[simp] theorem State.setBoard_drive (s : State) (x : Board) : (s.setBoard x).drive = s.drive := rfl
@[simp] theorem State.setBoard_faults (s : State) (x : Board) : (s.setBoard x).faults = s.faults := rfl
@[simp] theorem State.setBoard_freeCount (s : State) (x : Board) : (s.setBoard x).freeCount = s.freeCount := rfl
@[simp] theorem State.setBoard_schedule (s : State) (x : Board) : (s.setBoard x).schedule = s.schedule := rfl
@[simp] theorem State.setBoard_attemptWaiting (s : State) (x : Board) : (s.setBoard x).attemptWaiting = s.attemptWaiting := rfl
@[simp] theorem State.setBoard_pending (s : State) (x : Board) : (s.setBoard x).pending = s.pending := rfl

/-! ### setStore -/

@[simp] theorem State.setStore_phase (s : State) (x : Store) : (s.setStore x).phase = s.phase := rfl
@[simp] theorem State.setStore_lineLow (s : State) (x : Store) : (s.setStore x).lineLow = s.lineLow := rfl
@[simp] theorem State.setStore_link (s : State) (x : Store) : (s.setStore x).link = s.link := rfl
@[simp] theorem State.setStore_flash (s : State) (x : Store) : (s.setStore x).flash = s.flash := rfl
@[simp] theorem State.setStore_presence (s : State) (x : Store) : (s.setStore x).presence = s.presence := rfl
@[simp] theorem State.setStore_cfg (s : State) (x : Store) : (s.setStore x).cfg = s.cfg := rfl
@[simp] theorem State.setStore_store (s : State) (x : Store) : (s.setStore x).store = x := rfl
@[simp] theorem State.setStore_resetRoles (s : State) (x : Store) : (s.setStore x).resetRoles = s.resetRoles := rfl
@[simp] theorem State.setStore_clock (s : State) (x : Store) : (s.setStore x).clock = s.clock := rfl
@[simp] theorem State.setStore_timers (s : State) (x : Store) : (s.setStore x).timers = s.timers := rfl
@[simp] theorem State.setStore_board (s : State) (x : Store) : (s.setStore x).board = s.board := rfl
@[simp] theorem State.setStore_composer (s : State) (x : Store) : (s.setStore x).composer = s.composer := rfl
@[simp] theorem State.setStore_notices (s : State) (x : Store) : (s.setStore x).notices = s.notices := rfl
@[simp] theorem State.setStore_tiles (s : State) (x : Store) : (s.setStore x).tiles = s.tiles := rfl
@[simp] theorem State.setStore_energy (s : State) (x : Store) : (s.setStore x).energy = s.energy := rfl
@[simp] theorem State.setStore_drive (s : State) (x : Store) : (s.setStore x).drive = s.drive := rfl
@[simp] theorem State.setStore_faults (s : State) (x : Store) : (s.setStore x).faults = s.faults := rfl
@[simp] theorem State.setStore_freeCount (s : State) (x : Store) : (s.setStore x).freeCount = s.freeCount := rfl
@[simp] theorem State.setStore_schedule (s : State) (x : Store) : (s.setStore x).schedule = s.schedule := rfl
@[simp] theorem State.setStore_attemptWaiting (s : State) (x : Store) : (s.setStore x).attemptWaiting = s.attemptWaiting := rfl
@[simp] theorem State.setStore_pending (s : State) (x : Store) : (s.setStore x).pending = s.pending := rfl

/-! ### setLine -/

@[simp] theorem State.setLine_phase (s : State) (x : Bool) : (s.setLine x).phase = s.phase := rfl
@[simp] theorem State.setLine_lineLow (s : State) (x : Bool) : (s.setLine x).lineLow = x := rfl
@[simp] theorem State.setLine_link (s : State) (x : Bool) : (s.setLine x).link = s.link := rfl
@[simp] theorem State.setLine_flash (s : State) (x : Bool) : (s.setLine x).flash = s.flash := rfl
@[simp] theorem State.setLine_presence (s : State) (x : Bool) : (s.setLine x).presence = s.presence := rfl
@[simp] theorem State.setLine_cfg (s : State) (x : Bool) : (s.setLine x).cfg = s.cfg := rfl
@[simp] theorem State.setLine_store (s : State) (x : Bool) : (s.setLine x).store = s.store := rfl
@[simp] theorem State.setLine_resetRoles (s : State) (x : Bool) : (s.setLine x).resetRoles = s.resetRoles := rfl
@[simp] theorem State.setLine_clock (s : State) (x : Bool) : (s.setLine x).clock = s.clock := rfl
@[simp] theorem State.setLine_timers (s : State) (x : Bool) : (s.setLine x).timers = s.timers := rfl
@[simp] theorem State.setLine_board (s : State) (x : Bool) : (s.setLine x).board = s.board := rfl
@[simp] theorem State.setLine_composer (s : State) (x : Bool) : (s.setLine x).composer = s.composer := rfl
@[simp] theorem State.setLine_notices (s : State) (x : Bool) : (s.setLine x).notices = s.notices := rfl
@[simp] theorem State.setLine_tiles (s : State) (x : Bool) : (s.setLine x).tiles = s.tiles := rfl
@[simp] theorem State.setLine_energy (s : State) (x : Bool) : (s.setLine x).energy = s.energy := rfl
@[simp] theorem State.setLine_drive (s : State) (x : Bool) : (s.setLine x).drive = s.drive := rfl
@[simp] theorem State.setLine_faults (s : State) (x : Bool) : (s.setLine x).faults = s.faults := rfl
@[simp] theorem State.setLine_freeCount (s : State) (x : Bool) : (s.setLine x).freeCount = s.freeCount := rfl
@[simp] theorem State.setLine_schedule (s : State) (x : Bool) : (s.setLine x).schedule = s.schedule := rfl
@[simp] theorem State.setLine_attemptWaiting (s : State) (x : Bool) : (s.setLine x).attemptWaiting = s.attemptWaiting := rfl
@[simp] theorem State.setLine_pending (s : State) (x : Bool) : (s.setLine x).pending = s.pending := rfl

/-! ### setTiles -/

@[simp] theorem State.setTiles_phase (s : State) (x : TileMap) : (s.setTiles x).phase = s.phase := rfl
@[simp] theorem State.setTiles_lineLow (s : State) (x : TileMap) : (s.setTiles x).lineLow = s.lineLow := rfl
@[simp] theorem State.setTiles_link (s : State) (x : TileMap) : (s.setTiles x).link = s.link := rfl
@[simp] theorem State.setTiles_flash (s : State) (x : TileMap) : (s.setTiles x).flash = s.flash := rfl
@[simp] theorem State.setTiles_presence (s : State) (x : TileMap) : (s.setTiles x).presence = s.presence := rfl
@[simp] theorem State.setTiles_cfg (s : State) (x : TileMap) : (s.setTiles x).cfg = s.cfg := rfl
@[simp] theorem State.setTiles_store (s : State) (x : TileMap) : (s.setTiles x).store = s.store := rfl
@[simp] theorem State.setTiles_resetRoles (s : State) (x : TileMap) : (s.setTiles x).resetRoles = s.resetRoles := rfl
@[simp] theorem State.setTiles_clock (s : State) (x : TileMap) : (s.setTiles x).clock = s.clock := rfl
@[simp] theorem State.setTiles_timers (s : State) (x : TileMap) : (s.setTiles x).timers = s.timers := rfl
@[simp] theorem State.setTiles_board (s : State) (x : TileMap) : (s.setTiles x).board = s.board := rfl
@[simp] theorem State.setTiles_composer (s : State) (x : TileMap) : (s.setTiles x).composer = s.composer := rfl
@[simp] theorem State.setTiles_notices (s : State) (x : TileMap) : (s.setTiles x).notices = s.notices := rfl
@[simp] theorem State.setTiles_tiles (s : State) (x : TileMap) : (s.setTiles x).tiles = x := rfl
@[simp] theorem State.setTiles_energy (s : State) (x : TileMap) : (s.setTiles x).energy = s.energy := rfl
@[simp] theorem State.setTiles_drive (s : State) (x : TileMap) : (s.setTiles x).drive = s.drive := rfl
@[simp] theorem State.setTiles_faults (s : State) (x : TileMap) : (s.setTiles x).faults = s.faults := rfl
@[simp] theorem State.setTiles_freeCount (s : State) (x : TileMap) : (s.setTiles x).freeCount = s.freeCount := rfl
@[simp] theorem State.setTiles_schedule (s : State) (x : TileMap) : (s.setTiles x).schedule = s.schedule := rfl
@[simp] theorem State.setTiles_attemptWaiting (s : State) (x : TileMap) : (s.setTiles x).attemptWaiting = s.attemptWaiting := rfl
@[simp] theorem State.setTiles_pending (s : State) (x : TileMap) : (s.setTiles x).pending = s.pending := rfl

/-! ### setDrive -/

@[simp] theorem State.setDrive_phase (s : State) (x : Drive) : (s.setDrive x).phase = s.phase := rfl
@[simp] theorem State.setDrive_lineLow (s : State) (x : Drive) : (s.setDrive x).lineLow = s.lineLow := rfl
@[simp] theorem State.setDrive_link (s : State) (x : Drive) : (s.setDrive x).link = s.link := rfl
@[simp] theorem State.setDrive_flash (s : State) (x : Drive) : (s.setDrive x).flash = s.flash := rfl
@[simp] theorem State.setDrive_presence (s : State) (x : Drive) : (s.setDrive x).presence = s.presence := rfl
@[simp] theorem State.setDrive_cfg (s : State) (x : Drive) : (s.setDrive x).cfg = s.cfg := rfl
@[simp] theorem State.setDrive_store (s : State) (x : Drive) : (s.setDrive x).store = s.store := rfl
@[simp] theorem State.setDrive_resetRoles (s : State) (x : Drive) : (s.setDrive x).resetRoles = s.resetRoles := rfl
@[simp] theorem State.setDrive_clock (s : State) (x : Drive) : (s.setDrive x).clock = s.clock := rfl
@[simp] theorem State.setDrive_timers (s : State) (x : Drive) : (s.setDrive x).timers = s.timers := rfl
@[simp] theorem State.setDrive_board (s : State) (x : Drive) : (s.setDrive x).board = s.board := rfl
@[simp] theorem State.setDrive_composer (s : State) (x : Drive) : (s.setDrive x).composer = s.composer := rfl
@[simp] theorem State.setDrive_notices (s : State) (x : Drive) : (s.setDrive x).notices = s.notices := rfl
@[simp] theorem State.setDrive_tiles (s : State) (x : Drive) : (s.setDrive x).tiles = s.tiles := rfl
@[simp] theorem State.setDrive_energy (s : State) (x : Drive) : (s.setDrive x).energy = s.energy := rfl
@[simp] theorem State.setDrive_drive (s : State) (x : Drive) : (s.setDrive x).drive = x := rfl
@[simp] theorem State.setDrive_faults (s : State) (x : Drive) : (s.setDrive x).faults = s.faults := rfl
@[simp] theorem State.setDrive_freeCount (s : State) (x : Drive) : (s.setDrive x).freeCount = s.freeCount := rfl
@[simp] theorem State.setDrive_schedule (s : State) (x : Drive) : (s.setDrive x).schedule = s.schedule := rfl
@[simp] theorem State.setDrive_attemptWaiting (s : State) (x : Drive) : (s.setDrive x).attemptWaiting = s.attemptWaiting := rfl
@[simp] theorem State.setDrive_pending (s : State) (x : Drive) : (s.setDrive x).pending = s.pending := rfl

/-! ### setFlash -/

@[simp] theorem State.setFlash_phase (s : State) (x : Flash) : (s.setFlash x).phase = s.phase := rfl
@[simp] theorem State.setFlash_lineLow (s : State) (x : Flash) : (s.setFlash x).lineLow = s.lineLow := rfl
@[simp] theorem State.setFlash_link (s : State) (x : Flash) : (s.setFlash x).link = s.link := rfl
@[simp] theorem State.setFlash_flash (s : State) (x : Flash) : (s.setFlash x).flash = x := rfl
@[simp] theorem State.setFlash_presence (s : State) (x : Flash) : (s.setFlash x).presence = s.presence := rfl
@[simp] theorem State.setFlash_cfg (s : State) (x : Flash) : (s.setFlash x).cfg = s.cfg := rfl
@[simp] theorem State.setFlash_store (s : State) (x : Flash) : (s.setFlash x).store = s.store := rfl
@[simp] theorem State.setFlash_resetRoles (s : State) (x : Flash) : (s.setFlash x).resetRoles = s.resetRoles := rfl
@[simp] theorem State.setFlash_clock (s : State) (x : Flash) : (s.setFlash x).clock = s.clock := rfl
@[simp] theorem State.setFlash_timers (s : State) (x : Flash) : (s.setFlash x).timers = s.timers := rfl
@[simp] theorem State.setFlash_board (s : State) (x : Flash) : (s.setFlash x).board = s.board := rfl
@[simp] theorem State.setFlash_composer (s : State) (x : Flash) : (s.setFlash x).composer = s.composer := rfl
@[simp] theorem State.setFlash_notices (s : State) (x : Flash) : (s.setFlash x).notices = s.notices := rfl
@[simp] theorem State.setFlash_tiles (s : State) (x : Flash) : (s.setFlash x).tiles = s.tiles := rfl
@[simp] theorem State.setFlash_energy (s : State) (x : Flash) : (s.setFlash x).energy = s.energy := rfl
@[simp] theorem State.setFlash_drive (s : State) (x : Flash) : (s.setFlash x).drive = s.drive := rfl
@[simp] theorem State.setFlash_faults (s : State) (x : Flash) : (s.setFlash x).faults = s.faults := rfl
@[simp] theorem State.setFlash_freeCount (s : State) (x : Flash) : (s.setFlash x).freeCount = s.freeCount := rfl
@[simp] theorem State.setFlash_schedule (s : State) (x : Flash) : (s.setFlash x).schedule = s.schedule := rfl
@[simp] theorem State.setFlash_attemptWaiting (s : State) (x : Flash) : (s.setFlash x).attemptWaiting = s.attemptWaiting := rfl
@[simp] theorem State.setFlash_pending (s : State) (x : Flash) : (s.setFlash x).pending = s.pending := rfl

/-! ### setCfg -/

@[simp] theorem State.setCfg_phase (s : State) (x : ConfigRecord) : (s.setCfg x).phase = s.phase := rfl
@[simp] theorem State.setCfg_lineLow (s : State) (x : ConfigRecord) : (s.setCfg x).lineLow = s.lineLow := rfl
@[simp] theorem State.setCfg_link (s : State) (x : ConfigRecord) : (s.setCfg x).link = s.link := rfl
@[simp] theorem State.setCfg_flash (s : State) (x : ConfigRecord) : (s.setCfg x).flash = s.flash := rfl
@[simp] theorem State.setCfg_presence (s : State) (x : ConfigRecord) : (s.setCfg x).presence = s.presence := rfl
@[simp] theorem State.setCfg_cfg (s : State) (x : ConfigRecord) : (s.setCfg x).cfg = x := rfl
@[simp] theorem State.setCfg_store (s : State) (x : ConfigRecord) : (s.setCfg x).store = s.store := rfl
@[simp] theorem State.setCfg_resetRoles (s : State) (x : ConfigRecord) : (s.setCfg x).resetRoles = s.resetRoles := rfl
@[simp] theorem State.setCfg_clock (s : State) (x : ConfigRecord) : (s.setCfg x).clock = s.clock := rfl
@[simp] theorem State.setCfg_timers (s : State) (x : ConfigRecord) : (s.setCfg x).timers = s.timers := rfl
@[simp] theorem State.setCfg_board (s : State) (x : ConfigRecord) : (s.setCfg x).board = s.board := rfl
@[simp] theorem State.setCfg_composer (s : State) (x : ConfigRecord) : (s.setCfg x).composer = s.composer := rfl
@[simp] theorem State.setCfg_notices (s : State) (x : ConfigRecord) : (s.setCfg x).notices = s.notices := rfl
@[simp] theorem State.setCfg_tiles (s : State) (x : ConfigRecord) : (s.setCfg x).tiles = s.tiles := rfl
@[simp] theorem State.setCfg_energy (s : State) (x : ConfigRecord) : (s.setCfg x).energy = s.energy := rfl
@[simp] theorem State.setCfg_drive (s : State) (x : ConfigRecord) : (s.setCfg x).drive = s.drive := rfl
@[simp] theorem State.setCfg_faults (s : State) (x : ConfigRecord) : (s.setCfg x).faults = s.faults := rfl
@[simp] theorem State.setCfg_freeCount (s : State) (x : ConfigRecord) : (s.setCfg x).freeCount = s.freeCount := rfl
@[simp] theorem State.setCfg_schedule (s : State) (x : ConfigRecord) : (s.setCfg x).schedule = s.schedule := rfl
@[simp] theorem State.setCfg_attemptWaiting (s : State) (x : ConfigRecord) : (s.setCfg x).attemptWaiting = s.attemptWaiting := rfl
@[simp] theorem State.setCfg_pending (s : State) (x : ConfigRecord) : (s.setCfg x).pending = s.pending := rfl

/-! ### setTimers -/

@[simp] theorem State.setTimers_phase (s : State) (x : Timers) : (s.setTimers x).phase = s.phase := rfl
@[simp] theorem State.setTimers_lineLow (s : State) (x : Timers) : (s.setTimers x).lineLow = s.lineLow := rfl
@[simp] theorem State.setTimers_link (s : State) (x : Timers) : (s.setTimers x).link = s.link := rfl
@[simp] theorem State.setTimers_flash (s : State) (x : Timers) : (s.setTimers x).flash = s.flash := rfl
@[simp] theorem State.setTimers_presence (s : State) (x : Timers) : (s.setTimers x).presence = s.presence := rfl
@[simp] theorem State.setTimers_cfg (s : State) (x : Timers) : (s.setTimers x).cfg = s.cfg := rfl
@[simp] theorem State.setTimers_store (s : State) (x : Timers) : (s.setTimers x).store = s.store := rfl
@[simp] theorem State.setTimers_resetRoles (s : State) (x : Timers) : (s.setTimers x).resetRoles = s.resetRoles := rfl
@[simp] theorem State.setTimers_clock (s : State) (x : Timers) : (s.setTimers x).clock = s.clock := rfl
@[simp] theorem State.setTimers_timers (s : State) (x : Timers) : (s.setTimers x).timers = x := rfl
@[simp] theorem State.setTimers_board (s : State) (x : Timers) : (s.setTimers x).board = s.board := rfl
@[simp] theorem State.setTimers_composer (s : State) (x : Timers) : (s.setTimers x).composer = s.composer := rfl
@[simp] theorem State.setTimers_notices (s : State) (x : Timers) : (s.setTimers x).notices = s.notices := rfl
@[simp] theorem State.setTimers_tiles (s : State) (x : Timers) : (s.setTimers x).tiles = s.tiles := rfl
@[simp] theorem State.setTimers_energy (s : State) (x : Timers) : (s.setTimers x).energy = s.energy := rfl
@[simp] theorem State.setTimers_drive (s : State) (x : Timers) : (s.setTimers x).drive = s.drive := rfl
@[simp] theorem State.setTimers_faults (s : State) (x : Timers) : (s.setTimers x).faults = s.faults := rfl
@[simp] theorem State.setTimers_freeCount (s : State) (x : Timers) : (s.setTimers x).freeCount = s.freeCount := rfl
@[simp] theorem State.setTimers_schedule (s : State) (x : Timers) : (s.setTimers x).schedule = s.schedule := rfl
@[simp] theorem State.setTimers_attemptWaiting (s : State) (x : Timers) : (s.setTimers x).attemptWaiting = s.attemptWaiting := rfl
@[simp] theorem State.setTimers_pending (s : State) (x : Timers) : (s.setTimers x).pending = s.pending := rfl

/-! ### setPresence -/

@[simp] theorem State.setPresence_phase (s : State) (x : Presence) : (s.setPresence x).phase = s.phase := rfl
@[simp] theorem State.setPresence_lineLow (s : State) (x : Presence) : (s.setPresence x).lineLow = s.lineLow := rfl
@[simp] theorem State.setPresence_link (s : State) (x : Presence) : (s.setPresence x).link = s.link := rfl
@[simp] theorem State.setPresence_flash (s : State) (x : Presence) : (s.setPresence x).flash = s.flash := rfl
@[simp] theorem State.setPresence_presence (s : State) (x : Presence) : (s.setPresence x).presence = x := rfl
@[simp] theorem State.setPresence_cfg (s : State) (x : Presence) : (s.setPresence x).cfg = s.cfg := rfl
@[simp] theorem State.setPresence_store (s : State) (x : Presence) : (s.setPresence x).store = s.store := rfl
@[simp] theorem State.setPresence_resetRoles (s : State) (x : Presence) : (s.setPresence x).resetRoles = s.resetRoles := rfl
@[simp] theorem State.setPresence_clock (s : State) (x : Presence) : (s.setPresence x).clock = s.clock := rfl
@[simp] theorem State.setPresence_timers (s : State) (x : Presence) : (s.setPresence x).timers = s.timers := rfl
@[simp] theorem State.setPresence_board (s : State) (x : Presence) : (s.setPresence x).board = s.board := rfl
@[simp] theorem State.setPresence_composer (s : State) (x : Presence) : (s.setPresence x).composer = s.composer := rfl
@[simp] theorem State.setPresence_notices (s : State) (x : Presence) : (s.setPresence x).notices = s.notices := rfl
@[simp] theorem State.setPresence_tiles (s : State) (x : Presence) : (s.setPresence x).tiles = s.tiles := rfl
@[simp] theorem State.setPresence_energy (s : State) (x : Presence) : (s.setPresence x).energy = s.energy := rfl
@[simp] theorem State.setPresence_drive (s : State) (x : Presence) : (s.setPresence x).drive = s.drive := rfl
@[simp] theorem State.setPresence_faults (s : State) (x : Presence) : (s.setPresence x).faults = s.faults := rfl
@[simp] theorem State.setPresence_freeCount (s : State) (x : Presence) : (s.setPresence x).freeCount = s.freeCount := rfl
@[simp] theorem State.setPresence_schedule (s : State) (x : Presence) : (s.setPresence x).schedule = s.schedule := rfl
@[simp] theorem State.setPresence_attemptWaiting (s : State) (x : Presence) : (s.setPresence x).attemptWaiting = s.attemptWaiting := rfl
@[simp] theorem State.setPresence_pending (s : State) (x : Presence) : (s.setPresence x).pending = s.pending := rfl

/-! ### setFaults -/

@[simp] theorem State.setFaults_phase (s : State) (x : FaultUnit) : (s.setFaults x).phase = s.phase := rfl
@[simp] theorem State.setFaults_lineLow (s : State) (x : FaultUnit) : (s.setFaults x).lineLow = s.lineLow := rfl
@[simp] theorem State.setFaults_link (s : State) (x : FaultUnit) : (s.setFaults x).link = s.link := rfl
@[simp] theorem State.setFaults_flash (s : State) (x : FaultUnit) : (s.setFaults x).flash = s.flash := rfl
@[simp] theorem State.setFaults_presence (s : State) (x : FaultUnit) : (s.setFaults x).presence = s.presence := rfl
@[simp] theorem State.setFaults_cfg (s : State) (x : FaultUnit) : (s.setFaults x).cfg = s.cfg := rfl
@[simp] theorem State.setFaults_store (s : State) (x : FaultUnit) : (s.setFaults x).store = s.store := rfl
@[simp] theorem State.setFaults_resetRoles (s : State) (x : FaultUnit) : (s.setFaults x).resetRoles = s.resetRoles := rfl
@[simp] theorem State.setFaults_clock (s : State) (x : FaultUnit) : (s.setFaults x).clock = s.clock := rfl
@[simp] theorem State.setFaults_timers (s : State) (x : FaultUnit) : (s.setFaults x).timers = s.timers := rfl
@[simp] theorem State.setFaults_board (s : State) (x : FaultUnit) : (s.setFaults x).board = s.board := rfl
@[simp] theorem State.setFaults_composer (s : State) (x : FaultUnit) : (s.setFaults x).composer = s.composer := rfl
@[simp] theorem State.setFaults_notices (s : State) (x : FaultUnit) : (s.setFaults x).notices = s.notices := rfl
@[simp] theorem State.setFaults_tiles (s : State) (x : FaultUnit) : (s.setFaults x).tiles = s.tiles := rfl
@[simp] theorem State.setFaults_energy (s : State) (x : FaultUnit) : (s.setFaults x).energy = s.energy := rfl
@[simp] theorem State.setFaults_drive (s : State) (x : FaultUnit) : (s.setFaults x).drive = s.drive := rfl
@[simp] theorem State.setFaults_faults (s : State) (x : FaultUnit) : (s.setFaults x).faults = x := rfl
@[simp] theorem State.setFaults_freeCount (s : State) (x : FaultUnit) : (s.setFaults x).freeCount = s.freeCount := rfl
@[simp] theorem State.setFaults_schedule (s : State) (x : FaultUnit) : (s.setFaults x).schedule = s.schedule := rfl
@[simp] theorem State.setFaults_attemptWaiting (s : State) (x : FaultUnit) : (s.setFaults x).attemptWaiting = s.attemptWaiting := rfl
@[simp] theorem State.setFaults_pending (s : State) (x : FaultUnit) : (s.setFaults x).pending = s.pending := rfl

/-! ### setPending -/

@[simp] theorem State.setPending_phase (s : State) (x : List Instr) : (s.setPending x).phase = s.phase := rfl
@[simp] theorem State.setPending_lineLow (s : State) (x : List Instr) : (s.setPending x).lineLow = s.lineLow := rfl
@[simp] theorem State.setPending_link (s : State) (x : List Instr) : (s.setPending x).link = s.link := rfl
@[simp] theorem State.setPending_flash (s : State) (x : List Instr) : (s.setPending x).flash = s.flash := rfl
@[simp] theorem State.setPending_presence (s : State) (x : List Instr) : (s.setPending x).presence = s.presence := rfl
@[simp] theorem State.setPending_cfg (s : State) (x : List Instr) : (s.setPending x).cfg = s.cfg := rfl
@[simp] theorem State.setPending_store (s : State) (x : List Instr) : (s.setPending x).store = s.store := rfl
@[simp] theorem State.setPending_resetRoles (s : State) (x : List Instr) : (s.setPending x).resetRoles = s.resetRoles := rfl
@[simp] theorem State.setPending_clock (s : State) (x : List Instr) : (s.setPending x).clock = s.clock := rfl
@[simp] theorem State.setPending_timers (s : State) (x : List Instr) : (s.setPending x).timers = s.timers := rfl
@[simp] theorem State.setPending_board (s : State) (x : List Instr) : (s.setPending x).board = s.board := rfl
@[simp] theorem State.setPending_composer (s : State) (x : List Instr) : (s.setPending x).composer = s.composer := rfl
@[simp] theorem State.setPending_notices (s : State) (x : List Instr) : (s.setPending x).notices = s.notices := rfl
@[simp] theorem State.setPending_tiles (s : State) (x : List Instr) : (s.setPending x).tiles = s.tiles := rfl
@[simp] theorem State.setPending_energy (s : State) (x : List Instr) : (s.setPending x).energy = s.energy := rfl
@[simp] theorem State.setPending_drive (s : State) (x : List Instr) : (s.setPending x).drive = s.drive := rfl
@[simp] theorem State.setPending_faults (s : State) (x : List Instr) : (s.setPending x).faults = s.faults := rfl
@[simp] theorem State.setPending_freeCount (s : State) (x : List Instr) : (s.setPending x).freeCount = s.freeCount := rfl
@[simp] theorem State.setPending_schedule (s : State) (x : List Instr) : (s.setPending x).schedule = s.schedule := rfl
@[simp] theorem State.setPending_attemptWaiting (s : State) (x : List Instr) : (s.setPending x).attemptWaiting = s.attemptWaiting := rfl
@[simp] theorem State.setPending_pending (s : State) (x : List Instr) : (s.setPending x).pending = x := rfl

/-! ### setReceiver -/

@[simp] theorem State.setReceiver_phase (s : State) (x : Receiver) : (s.setReceiver x).phase = s.phase := rfl
@[simp] theorem State.setReceiver_lineLow (s : State) (x : Receiver) : (s.setReceiver x).lineLow = s.lineLow := rfl
@[simp] theorem State.setReceiver_link (s : State) (x : Receiver) : (s.setReceiver x).link = { s.link with receiver := x } := rfl
@[simp] theorem State.setReceiver_flash (s : State) (x : Receiver) : (s.setReceiver x).flash = s.flash := rfl
@[simp] theorem State.setReceiver_presence (s : State) (x : Receiver) : (s.setReceiver x).presence = s.presence := rfl
@[simp] theorem State.setReceiver_cfg (s : State) (x : Receiver) : (s.setReceiver x).cfg = s.cfg := rfl
@[simp] theorem State.setReceiver_store (s : State) (x : Receiver) : (s.setReceiver x).store = s.store := rfl
@[simp] theorem State.setReceiver_resetRoles (s : State) (x : Receiver) : (s.setReceiver x).resetRoles = s.resetRoles := rfl
@[simp] theorem State.setReceiver_clock (s : State) (x : Receiver) : (s.setReceiver x).clock = s.clock := rfl
@[simp] theorem State.setReceiver_timers (s : State) (x : Receiver) : (s.setReceiver x).timers = s.timers := rfl
@[simp] theorem State.setReceiver_board (s : State) (x : Receiver) : (s.setReceiver x).board = s.board := rfl
@[simp] theorem State.setReceiver_composer (s : State) (x : Receiver) : (s.setReceiver x).composer = s.composer := rfl
@[simp] theorem State.setReceiver_notices (s : State) (x : Receiver) : (s.setReceiver x).notices = s.notices := rfl
@[simp] theorem State.setReceiver_tiles (s : State) (x : Receiver) : (s.setReceiver x).tiles = s.tiles := rfl
@[simp] theorem State.setReceiver_energy (s : State) (x : Receiver) : (s.setReceiver x).energy = s.energy := rfl
@[simp] theorem State.setReceiver_drive (s : State) (x : Receiver) : (s.setReceiver x).drive = s.drive := rfl
@[simp] theorem State.setReceiver_faults (s : State) (x : Receiver) : (s.setReceiver x).faults = s.faults := rfl
@[simp] theorem State.setReceiver_freeCount (s : State) (x : Receiver) : (s.setReceiver x).freeCount = s.freeCount := rfl
@[simp] theorem State.setReceiver_schedule (s : State) (x : Receiver) : (s.setReceiver x).schedule = s.schedule := rfl
@[simp] theorem State.setReceiver_attemptWaiting (s : State) (x : Receiver) : (s.setReceiver x).attemptWaiting = s.attemptWaiting := rfl
@[simp] theorem State.setReceiver_pending (s : State) (x : Receiver) : (s.setReceiver x).pending = s.pending := rfl

/-! ### startWrite -/

@[simp] theorem State.startWrite_phase (s : State) (x : FlashWrite) : (s.startWrite x).phase = s.phase := rfl
@[simp] theorem State.startWrite_lineLow (s : State) (x : FlashWrite) : (s.startWrite x).lineLow = s.lineLow := rfl
@[simp] theorem State.startWrite_link (s : State) (x : FlashWrite) : (s.startWrite x).link = { s.link with write := some x } := rfl
@[simp] theorem State.startWrite_flash (s : State) (x : FlashWrite) : (s.startWrite x).flash = s.flash := rfl
@[simp] theorem State.startWrite_presence (s : State) (x : FlashWrite) : (s.startWrite x).presence = s.presence := rfl
@[simp] theorem State.startWrite_cfg (s : State) (x : FlashWrite) : (s.startWrite x).cfg = s.cfg := rfl
@[simp] theorem State.startWrite_store (s : State) (x : FlashWrite) : (s.startWrite x).store = s.store := rfl
@[simp] theorem State.startWrite_resetRoles (s : State) (x : FlashWrite) : (s.startWrite x).resetRoles = s.resetRoles := rfl
@[simp] theorem State.startWrite_clock (s : State) (x : FlashWrite) : (s.startWrite x).clock = s.clock := rfl
@[simp] theorem State.startWrite_timers (s : State) (x : FlashWrite) : (s.startWrite x).timers = s.timers := rfl
@[simp] theorem State.startWrite_board (s : State) (x : FlashWrite) : (s.startWrite x).board = s.board := rfl
@[simp] theorem State.startWrite_composer (s : State) (x : FlashWrite) : (s.startWrite x).composer = s.composer := rfl
@[simp] theorem State.startWrite_notices (s : State) (x : FlashWrite) : (s.startWrite x).notices = s.notices := rfl
@[simp] theorem State.startWrite_tiles (s : State) (x : FlashWrite) : (s.startWrite x).tiles = s.tiles := rfl
@[simp] theorem State.startWrite_energy (s : State) (x : FlashWrite) : (s.startWrite x).energy = s.energy := rfl
@[simp] theorem State.startWrite_drive (s : State) (x : FlashWrite) : (s.startWrite x).drive = s.drive := rfl
@[simp] theorem State.startWrite_faults (s : State) (x : FlashWrite) : (s.startWrite x).faults = s.faults := rfl
@[simp] theorem State.startWrite_freeCount (s : State) (x : FlashWrite) : (s.startWrite x).freeCount = s.freeCount := rfl
@[simp] theorem State.startWrite_schedule (s : State) (x : FlashWrite) : (s.startWrite x).schedule = s.schedule := rfl
@[simp] theorem State.startWrite_attemptWaiting (s : State) (x : FlashWrite) : (s.startWrite x).attemptWaiting = s.attemptWaiting := rfl
@[simp] theorem State.startWrite_pending (s : State) (x : FlashWrite) : (s.startWrite x).pending = s.pending := rfl

/-! ### raise -/

@[simp] theorem State.raise_phase (s : State) (x : FaultCode) : (s.raise x).phase = s.phase := rfl
@[simp] theorem State.raise_lineLow (s : State) (x : FaultCode) : (s.raise x).lineLow = s.lineLow := rfl
@[simp] theorem State.raise_link (s : State) (x : FaultCode) : (s.raise x).link = s.link := rfl
@[simp] theorem State.raise_flash (s : State) (x : FaultCode) : (s.raise x).flash = s.flash := rfl
@[simp] theorem State.raise_presence (s : State) (x : FaultCode) : (s.raise x).presence = s.presence := rfl
@[simp] theorem State.raise_cfg (s : State) (x : FaultCode) : (s.raise x).cfg = s.cfg := rfl
@[simp] theorem State.raise_store (s : State) (x : FaultCode) : (s.raise x).store = s.store := rfl
@[simp] theorem State.raise_resetRoles (s : State) (x : FaultCode) : (s.raise x).resetRoles = s.resetRoles := rfl
@[simp] theorem State.raise_clock (s : State) (x : FaultCode) : (s.raise x).clock = s.clock := rfl
@[simp] theorem State.raise_timers (s : State) (x : FaultCode) : (s.raise x).timers = s.timers := rfl
@[simp] theorem State.raise_board (s : State) (x : FaultCode) : (s.raise x).board = s.board := rfl
@[simp] theorem State.raise_composer (s : State) (x : FaultCode) : (s.raise x).composer = s.composer := rfl
@[simp] theorem State.raise_notices (s : State) (x : FaultCode) : (s.raise x).notices = s.notices := rfl
@[simp] theorem State.raise_tiles (s : State) (x : FaultCode) : (s.raise x).tiles = s.tiles := rfl
@[simp] theorem State.raise_energy (s : State) (x : FaultCode) : (s.raise x).energy = s.energy := rfl
@[simp] theorem State.raise_drive (s : State) (x : FaultCode) : (s.raise x).drive = s.drive := rfl
@[simp] theorem State.raise_faults (s : State) (x : FaultCode) : (s.raise x).faults = s.faults.raise x s.clock.stamp := rfl
@[simp] theorem State.raise_freeCount (s : State) (x : FaultCode) : (s.raise x).freeCount = s.freeCount := rfl
@[simp] theorem State.raise_schedule (s : State) (x : FaultCode) : (s.raise x).schedule = s.schedule := rfl
@[simp] theorem State.raise_attemptWaiting (s : State) (x : FaultCode) : (s.raise x).attemptWaiting = s.attemptWaiting := rfl
@[simp] theorem State.raise_pending (s : State) (x : FaultCode) : (s.raise x).pending = s.pending := rfl

/-! ### addNews -/

@[simp] theorem State.addNews_phase (s : State) (x : NewsItem) : (s.addNews x).phase = s.phase := rfl
@[simp] theorem State.addNews_lineLow (s : State) (x : NewsItem) : (s.addNews x).lineLow = s.lineLow := rfl
@[simp] theorem State.addNews_link (s : State) (x : NewsItem) : (s.addNews x).link = s.link := rfl
@[simp] theorem State.addNews_flash (s : State) (x : NewsItem) : (s.addNews x).flash = s.flash := rfl
@[simp] theorem State.addNews_presence (s : State) (x : NewsItem) : (s.addNews x).presence = s.presence := rfl
@[simp] theorem State.addNews_cfg (s : State) (x : NewsItem) : (s.addNews x).cfg = s.cfg := rfl
@[simp] theorem State.addNews_store (s : State) (x : NewsItem) : (s.addNews x).store = s.store := rfl
@[simp] theorem State.addNews_resetRoles (s : State) (x : NewsItem) : (s.addNews x).resetRoles = s.resetRoles := rfl
@[simp] theorem State.addNews_clock (s : State) (x : NewsItem) : (s.addNews x).clock = s.clock := rfl
@[simp] theorem State.addNews_timers (s : State) (x : NewsItem) : (s.addNews x).timers = s.timers := rfl
@[simp] theorem State.addNews_board (s : State) (x : NewsItem) : (s.addNews x).board = s.board := rfl
@[simp] theorem State.addNews_composer (s : State) (x : NewsItem) : (s.addNews x).composer = s.composer := rfl
@[simp] theorem State.addNews_notices (s : State) (x : NewsItem) : (s.addNews x).notices = s.notices := rfl
@[simp] theorem State.addNews_tiles (s : State) (x : NewsItem) : (s.addNews x).tiles = s.tiles := rfl
@[simp] theorem State.addNews_energy (s : State) (x : NewsItem) : (s.addNews x).energy = s.energy := rfl
@[simp] theorem State.addNews_drive (s : State) (x : NewsItem) : (s.addNews x).drive = s.drive := rfl
@[simp] theorem State.addNews_faults (s : State) (x : NewsItem) : (s.addNews x).faults = { s.faults with news := s.faults.news ||| x.bit } := rfl
@[simp] theorem State.addNews_freeCount (s : State) (x : NewsItem) : (s.addNews x).freeCount = s.freeCount := rfl
@[simp] theorem State.addNews_schedule (s : State) (x : NewsItem) : (s.addNews x).schedule = s.schedule := rfl
@[simp] theorem State.addNews_attemptWaiting (s : State) (x : NewsItem) : (s.addNews x).attemptWaiting = s.attemptWaiting := rfl
@[simp] theorem State.addNews_pending (s : State) (x : NewsItem) : (s.addNews x).pending = s.pending := rfl

/-! ### setDuty -/

@[simp] theorem State.setDuty_phase (s : State) : (s.setDuty).phase = s.phase := rfl
@[simp] theorem State.setDuty_lineLow (s : State) : (s.setDuty).lineLow = s.lineLow := rfl
@[simp] theorem State.setDuty_link (s : State) : (s.setDuty).link = s.link := rfl
@[simp] theorem State.setDuty_flash (s : State) : (s.setDuty).flash = s.flash := rfl
@[simp] theorem State.setDuty_presence (s : State) : (s.setDuty).presence = s.presence := rfl
@[simp] theorem State.setDuty_cfg (s : State) : (s.setDuty).cfg = s.cfg := rfl
@[simp] theorem State.setDuty_store (s : State) : (s.setDuty).store = s.store := rfl
@[simp] theorem State.setDuty_resetRoles (s : State) : (s.setDuty).resetRoles = s.resetRoles := rfl
@[simp] theorem State.setDuty_clock (s : State) : (s.setDuty).clock = s.clock := rfl
@[simp] theorem State.setDuty_timers (s : State) : (s.setDuty).timers = s.timers := rfl
@[simp] theorem State.setDuty_board (s : State) : (s.setDuty).board = s.board := rfl
@[simp] theorem State.setDuty_composer (s : State) : (s.setDuty).composer = s.composer := rfl
@[simp] theorem State.setDuty_notices (s : State) : (s.setDuty).notices = s.notices := rfl
@[simp] theorem State.setDuty_tiles (s : State) : (s.setDuty).tiles = s.tiles := rfl
@[simp] theorem State.setDuty_energy (s : State) : (s.setDuty).energy = { s.energy with duty := s.cfg.duty s.energy.window s.energy.conserve } := rfl
@[simp] theorem State.setDuty_drive (s : State) : (s.setDuty).drive = s.drive := rfl
@[simp] theorem State.setDuty_faults (s : State) : (s.setDuty).faults = s.faults := rfl
@[simp] theorem State.setDuty_freeCount (s : State) : (s.setDuty).freeCount = s.freeCount := rfl
@[simp] theorem State.setDuty_schedule (s : State) : (s.setDuty).schedule = s.schedule := rfl
@[simp] theorem State.setDuty_attemptWaiting (s : State) : (s.setDuty).attemptWaiting = s.attemptWaiting := rfl
@[simp] theorem State.setDuty_pending (s : State) : (s.setDuty).pending = s.pending := rfl

/-! ### setWindow -/

@[simp] theorem State.setWindow_phase (s : State) (x : Bool) : (s.setWindow x).phase = s.phase := rfl
@[simp] theorem State.setWindow_lineLow (s : State) (x : Bool) : (s.setWindow x).lineLow = s.lineLow := rfl
@[simp] theorem State.setWindow_link (s : State) (x : Bool) : (s.setWindow x).link = s.link := rfl
@[simp] theorem State.setWindow_flash (s : State) (x : Bool) : (s.setWindow x).flash = s.flash := rfl
@[simp] theorem State.setWindow_presence (s : State) (x : Bool) : (s.setWindow x).presence = s.presence := rfl
@[simp] theorem State.setWindow_cfg (s : State) (x : Bool) : (s.setWindow x).cfg = s.cfg := rfl
@[simp] theorem State.setWindow_store (s : State) (x : Bool) : (s.setWindow x).store = s.store := rfl
@[simp] theorem State.setWindow_resetRoles (s : State) (x : Bool) : (s.setWindow x).resetRoles = s.resetRoles := rfl
@[simp] theorem State.setWindow_clock (s : State) (x : Bool) : (s.setWindow x).clock = s.clock := rfl
@[simp] theorem State.setWindow_timers (s : State) (x : Bool) : (s.setWindow x).timers = s.timers := rfl
@[simp] theorem State.setWindow_board (s : State) (x : Bool) : (s.setWindow x).board = s.board := rfl
@[simp] theorem State.setWindow_composer (s : State) (x : Bool) : (s.setWindow x).composer = s.composer := rfl
@[simp] theorem State.setWindow_notices (s : State) (x : Bool) : (s.setWindow x).notices = s.notices := rfl
@[simp] theorem State.setWindow_tiles (s : State) (x : Bool) : (s.setWindow x).tiles = s.tiles := rfl
@[simp] theorem State.setWindow_energy (s : State) (x : Bool) : (s.setWindow x).energy = { s.energy with window := x, duty := s.cfg.duty x s.energy.conserve } := rfl
@[simp] theorem State.setWindow_drive (s : State) (x : Bool) : (s.setWindow x).drive = s.drive := rfl
@[simp] theorem State.setWindow_faults (s : State) (x : Bool) : (s.setWindow x).faults = s.faults := rfl
@[simp] theorem State.setWindow_freeCount (s : State) (x : Bool) : (s.setWindow x).freeCount = s.freeCount := rfl
@[simp] theorem State.setWindow_schedule (s : State) (x : Bool) : (s.setWindow x).schedule = s.schedule := rfl
@[simp] theorem State.setWindow_attemptWaiting (s : State) (x : Bool) : (s.setWindow x).attemptWaiting = s.attemptWaiting := rfl
@[simp] theorem State.setWindow_pending (s : State) (x : Bool) : (s.setWindow x).pending = s.pending := rfl

end Sys2Proof.Machine
end

