-- ==== Sys2Proof/Laws/Requests.lean ====
section
/-! SUPPORT. Taking a request, answering it, and work in either order: one lemma for each shared operation. -/

namespace Sys2Proof.Machine

/-- What a reply is (R187). -/
theorem reply_answered {s : State} {r : Request} {rest : List Request} (h : s.link.requests = r :: rest) (e : Result)
    (d : List Byte) :
    s.reply e d = { s with link := s.link.answered r rest e.code s.faults.newsFlag d } := by
  cases hn : s.faults.newsFlag <;> simp [State.reply, h, replyTo, Link.answered, b8, flag8, hn]

/-- A taken request of an allowed length is handed to its work (R186). -/
theorem take_work {s : State} {r : Request} {rest : List Request} (h : s.headIs r rest) {kind : Nat}
    (hk : r.kind.toNat = kind) (hl : lengthAllowed kind r.payload.length = true) (f : List Byte → State → State) :
    s.take kind f = f r.payload s := by
  simp [State.take, h.1, h.2, hk, hl]

/-- A taken request of a length its kind does not allow is refused BAD_LENGTH (R186). -/
theorem take_badLength {s : State} {r : Request} {rest : List Request} (h : s.headIs r rest) {kind : Nat}
    (hk : r.kind.toNat = kind) (hl : lengthAllowed kind r.payload.length = false) (f : List Byte → State → State) :
    s.take kind f = s.reply .badLength [] := by
  simp [State.take, h.1, h.2, hk, hl]

/-- Everything a request's command can do: nothing, a BAD_LENGTH reply, or its work on the head's payload. -/
theorem take_cases (s : State) (kind : Nat) (f : List Byte → State → State) :
    s.take kind f = s ∨ s.take kind f = s.reply .badLength [] ∨
      ∃ r rest, s.headIs r rest ∧ r.kind.toNat = kind ∧ lengthAllowed kind r.payload.length = true ∧
        s.take kind f = f r.payload s := by
  cases hq : s.link.requests with
  | nil => left; simp [State.take, hq]
  | cons r rest =>
    by_cases ht : s.takesRequests = true
    · by_cases hk : r.kind.toNat = kind
      · cases hl : lengthAllowed kind r.payload.length with
        | true => exact .inr (.inr ⟨r, rest, ⟨ht, hq⟩, hk, hl, take_work ⟨ht, hq⟩ hk hl f⟩)
        | false => exact .inr (.inl (take_badLength ⟨ht, hq⟩ hk hl f))
      · left; simp [State.take, hq, hk]
    · left; simp [State.take, hq, ht]

/-- Work in either order is one of the two orders, on a state whose schedule alone may have moved on. -/
theorem eitherOrder_cases (s : State) (f g : State → State) :
    ∃ l, s.eitherOrder f g = f (g { s with schedule := l }) ∨ s.eitherOrder f g = g (f { s with schedule := l }) := by
  unfold State.eitherOrder State.choose
  split
  · exact ⟨s.schedule, by simp⟩
  · rename_i b rest _
    exact ⟨rest, by cases b <;> simp⟩

theorem headIs_takesRequests {s : State} {r : Request} {rest : List Request} (h : s.headIs r rest) :
    s.takesRequests = true := h.1

theorem headIs_requests {s : State} {r : Request} {rest : List Request} (h : s.headIs r rest) :
    s.link.requests = r :: rest := h.2

/-- A request can be taken only while the part is running, with no write in progress and no RESET waiting. -/
theorem takesRequests_iff (s : State) :
    s.takesRequests = true ↔ s.phase = .running ∧ s.link.write = none ∧ s.link.resetAfter = none := by
  simp [State.takesRequests, and_assoc]

end Sys2Proof.Machine
end

