-- ==== Sys2Proof/Laws/Tables.lean ====
section
/-! SUPPORT. The tables of the Flash Store and the presence maps: a read after a write at the same place and at another, the
canonical form kept by every write, and membership in a presence map; and what a failed configuration write leaves. -/

namespace Sys2Proof.Machine

variable {α : Type}

/-- A read after a write of an item that is not erased gives that item. -/
theorem tableRead_write_same (t : List (Nat × Item α)) (n : Nat) {y : Item α} (h : y.isErased = false) :
    tableRead (tableWrite t n y) n = y := by
  induction t with
  | nil => simp [tableWrite, h, tableRead]
  | cons p t ih =>
    obtain ⟨k, x⟩ := p
    unfold tableWrite
    split
    · simp [h, tableRead]
    · split
      · simp [h, tableRead]
      · rename_i hne
        simp [tableRead, Ne.symm hne, ih]

/-- A write leaves every other place alone. -/
theorem tableRead_write_other (t : List (Nat × Item α)) {n k : Nat} (h : k ≠ n) (y : Item α) :
    tableRead (tableWrite t n y) k = tableRead t k := by
  induction t with
  | nil => unfold tableWrite; split <;> simp [tableRead, Ne.symm h]
  | cons p t ih =>
    obtain ⟨i, x⟩ := p
    unfold tableWrite
    split
    · split <;> simp [tableRead, Ne.symm h]
    · split
      · rename_i hi
        subst hi
        split <;> simp [tableRead, Ne.symm h]
      · simp [tableRead, ih]

/-- A bound below every place of a table. -/
def belowAll (low : Option Nat) (n : Nat) : Bool :=
  match low with
  | none => true
  | some b => b < n

theorem tableWfAbove_cons (low : Option Nat) (k : Nat) (x : Item α) (t : List (Nat × Item α)) :
    tableWfAbove low ((k, x) :: t) = (belowAll low k && !x.isErased && tableWfAbove (some k) t) := rfl

theorem tableWfAbove_mono {t : List (Nat × Item α)} {low low' : Option Nat}
    (h : ∀ k, belowAll low k = true → belowAll low' k = true) (hw : tableWfAbove low t = true) :
    tableWfAbove low' t = true := by
  cases t with
  | nil => rfl
  | cons p t =>
    obtain ⟨k, x⟩ := p
    simp only [tableWfAbove_cons, Bool.and_eq_true] at hw ⊢
    exact ⟨⟨h k hw.1.1, hw.1.2⟩, hw.2⟩

theorem tableWfAbove_write (t : List (Nat × Item α)) (n : Nat) (y : Item α) (low : Option Nat)
    (hn : belowAll low n = true) (hw : tableWfAbove low t = true) : tableWfAbove low (tableWrite t n y) = true := by
  induction t generalizing low with
  | nil =>
    unfold tableWrite
    split
    · rfl
    · rename_i he
      rw [tableWfAbove_cons, hn]
      simp [he, tableWfAbove]
  | cons p t ih =>
    obtain ⟨k, x⟩ := p
    have hw' := hw
    simp only [tableWfAbove_cons, Bool.and_eq_true] at hw
    unfold tableWrite
    split
    · split
      · exact hw'
      · rename_i hlt he
        simp_all [tableWfAbove_cons, belowAll]
    · split
      · rename_i hk
        subst hk
        split
        · refine tableWfAbove_mono (low := some n) (fun i hi => ?_) hw.2
          cases low <;> simp_all [belowAll]
          omega
        · simp_all [tableWfAbove_cons]
      · rename_i h1 h2
        have := ih (some k) (by simp only [belowAll, decide_eq_true_eq]; omega) hw.2
        simp_all [tableWfAbove_cons]

/-- Every write keeps the canonical form (R96). -/
theorem tableWf_write {t : List (Nat × Item α)} (h : tableWf t = true) (n : Nat) (y : Item α) :
    tableWf (tableWrite t n y) = true := tableWfAbove_write t n y none rfl h

/-- Writing what an unlisted place reads as, erased, leaves that place unlisted. -/
theorem tableRead_write_erased {t : List (Nat × Item α)} (h : tableWf t = true) (n : Nat) :
    tableRead (tableWrite t n .erased) n = .erased := by
  suffices ∀ low, tableWfAbove low t = true → tableRead (tableWrite t n .erased) n = .erased from this none h
  clear h
  have above : ∀ (l : List (Nat × Item α)) b, n ≤ b → tableWfAbove (some b) l = true → tableRead l n = .erased := by
    intro l
    induction l with
    | nil => intros; rfl
    | cons p l ih =>
      obtain ⟨k, x⟩ := p
      intro b hb hw
      simp only [tableWfAbove_cons, belowAll, Bool.and_eq_true, decide_eq_true_eq] at hw
      have hk : k ≠ n := by omega
      simp only [tableRead, hk, if_false]
      exact ih k (by omega) hw.2
  induction t with
  | nil => intros; rfl
  | cons p t ih =>
    obtain ⟨k, x⟩ := p
    intro low hw
    simp only [tableWfAbove_cons, Bool.and_eq_true] at hw
    unfold tableWrite
    split
    · rename_i hlt
      have hk : k ≠ n := by omega
      simp only [Item.isErased, if_true, tableRead, hk, if_false]
      exact above t k (by omega) hw.2
    · split
      · rename_i hk
        simp only [Item.isErased, if_true]
        exact above t k (by omega) hw.2
      · rename_i hk
        simp only [tableRead, Ne.symm hk, if_false]
        exact ih _ hw.2

/-! ### Presence maps (R96) -/

@[simp] theorem mem_presentAdd (l : List Nat) (n k : Nat) : k ∈ presentAdd l n ↔ k = n ∨ k ∈ l := by
  induction l with
  | nil => simp [presentAdd]
  | cons i l ih =>
    unfold presentAdd
    split
    · simp
    · split
      · rename_i h
        subst h
        simp
      · simp only [List.mem_cons, ih]
        exact or_left_comm

@[simp] theorem mem_presentDrop (l : List Nat) (n k : Nat) : k ∈ presentDrop l n ↔ k ∈ l ∧ k ≠ n := by
  simp [presentDrop]

/-! ### The configuration record -/

/-- Everything a failed configuration write can leave: a record that fails its check, or one that passes it with the given windows
(R56, R58). -/
theorem leftConfig_cases (w : Vector Window 8) (n : Nat) :
    leftConfig w n = .bad ∨ ∃ params, leftConfig w n = .good ⟨params, w⟩ := by
  unfold leftConfig
  split
  · exact .inl rfl
  · exact .inr ⟨_, rfl⟩

/-! ### State.reset -/

/-- The tables of the state after reset have the canonical form. -/
theorem reset_flash_sound : State.reset.flash.sound := ⟨rfl, rfl⟩

end Sys2Proof.Machine
end

