-- ==== Sys2Proof/Laws/Tiles.lean ====
section
/-! SUPPORT. The Tile Map's operations: which of them change a tile's shown signature, ghost count or clear-due mark, what a
completion and an abort make of each tile, that none but a rebuild changes the geometry, and the number a new job takes. -/

namespace Sys2Proof.Machine

/-- What a drive alone changes of a tile (R125, R130, R132). -/
def Tile.glass (t : Tile) : Option Signature × Nat × Bool := (t.shown, t.ghost, t.clearDue)

/-- Two Tile Maps of one geometry whose tiles agree in what a drive alone changes. -/
structure SameGlass (a b : TileMap) : Prop where
  wt : b.wt = a.wt
  ht : b.ht = a.ht
  glass : b.tiles.map Tile.glass = a.tiles.map Tile.glass

theorem SameGlass.refl (a : TileMap) : SameGlass a a := ⟨rfl, rfl, rfl⟩

theorem SameGlass.trans {a b c : TileMap} (h : SameGlass a b) (k : SameGlass b c) : SameGlass a c :=
  ⟨k.wt.trans h.wt, k.ht.trans h.ht, k.glass.trans h.glass⟩

theorem SameGlass.length {a b : TileMap} (h : SameGlass a b) : b.tiles.length = a.tiles.length := by
  simpa using congrArg List.length h.glass

/-- Tile by tile. -/
theorem SameGlass.tile {a b : TileMap} (h : SameGlass a b) {i : Nat} {x y : Tile} (hx : a.tiles[i]? = some x)
    (hy : b.tiles[i]? = some y) : y.shown = x.shown ∧ y.ghost = x.ghost ∧ y.clearDue = x.clearDue := by
  have := congrArg (·[i]?) h.glass
  simpa [hx, hy, Tile.glass] using this

theorem mapTiles_glass (f : Nat → Tile → Tile) (hf : ∀ i t, (f i t).glass = t.glass) (i : Nat) (l : List Tile) :
    (mapTiles f i l).map Tile.glass = l.map Tile.glass := by
  induction l generalizing i with
  | nil => rfl
  | cons t l ih => simp [mapTiles, hf, ih]

theorem map_glass (f : Tile → Tile) (hf : ∀ t, (f t).glass = t.glass) (l : List Tile) :
    (l.map f).map Tile.glass = l.map Tile.glass := by simp [hf]

theorem removeJobs_sameGlass (tm : TileMap) (g : Job → Bool) : SameGlass tm (tm.removeJobs g) := by
  refine ⟨rfl, rfl, map_glass _ (fun t => ?_) _⟩
  split
  · rfl
  · split <;> rfl

theorem queueSpan_sameGlass (tm : TileMap) (b : JobClass) (o : List Job) (r f l : Nat) :
    SameGlass tm (tm.queueSpan b o r f l) := by
  refine ⟨rfl, rfl, mapTiles_glass _ (fun i t => ?_) _ _⟩
  split <;> rfl

theorem queueSpans_sameGlass (b : JobClass) (o : List Job) (r : Nat) (l : List (Nat × Nat)) (tm : TileMap) :
    SameGlass tm (TileMap.queueSpans b o r tm l) := by
  induction l generalizing tm with
  | nil => exact .refl tm
  | cons x l ih =>
    unfold TileMap.queueSpans
    split
    · exact (queueSpan_sameGlass tm ..).trans (ih _)
    · exact .refl tm

/-- Formation of a row changes references and the queue alone (R120 to R123). -/
theorem formRow_sameGlass (tm : TileMap) (b : JobClass) (r : Nat) : SameGlass tm (tm.formRow b r).1 := by
  unfold TileMap.formRow
  split
  · exact .refl tm
  · exact (removeJobs_sameGlass tm _).trans (queueSpans_sameGlass ..)

theorem formRows_sameGlass (b : JobClass) (l : List Nat) (tm : TileMap) : SameGlass tm (TileMap.formRows b tm l).1 := by
  induction l generalizing tm with
  | nil => exact .refl tm
  | cons r l ih => exact (formRow_sameGlass tm b r).trans (ih _)

/-- Queuing a full clean changes references and the queue alone (R127, R128). -/
theorem queueClean_sameGlass (tm : TileMap) : SameGlass tm tm.queueClean.1 := by
  unfold TileMap.queueClean
  split
  · exact .refl tm
  · refine (removeJobs_sameGlass tm fun j => j.state == .queued).trans ⟨rfl, rfl, map_glass _ (fun t => ?_) _⟩
    split <;> rfl

/-- After the queuing of a full clean there is one (R127). -/
theorem queueClean_hasClean (tm : TileMap) : tm.queueClean.1.hasClean = true := by
  unfold TileMap.queueClean
  split
  · assumption
  · simp [TileMap.hasClean]

theorem testThreshold_sameGlass (tm : TileMap) : SameGlass tm tm.testThreshold.1 := by
  unfold TileMap.testThreshold
  split
  · exact queueClean_sameGlass tm
  · exact .refl tm

/-- The steps after a job has left the queue change references and the queue alone (R131). -/
theorem afterJob_sameGlass (tm : TileMap) (b : JobClass) (j : Job) (d : Bool) : SameGlass tm (tm.afterJob b j d).1 := by
  unfold TileMap.afterJob
  refine (testThreshold_sameGlass tm).trans (.trans ?_ ((formRows_sameGlass ..).trans (formRows_sameGlass ..)))
  split
  · exact queueClean_sameGlass _
  · exact .refl _

/-! ### Completion and abort, tile by tile -/

theorem completeTiles_length (j : Job) (wt limit : Nat) (ref : Option Nat) (l : List Tile) (i : Nat)
    (snap : List (Option Signature)) : (completeTiles j wt limit ref i snap l).length = l.length := by
  induction l generalizing i snap with
  | nil => rfl
  | cons t l ih =>
    unfold completeTiles
    split <;> simp [ih]

theorem mapTiles_length (f : Nat → Tile → Tile) (i : Nat) (l : List Tile) : (mapTiles f i l).length = l.length := by
  induction l generalizing i with
  | nil => rfl
  | cons t l ih => simp [mapTiles, ih]

theorem mapTiles_tile (f : Nat → Tile → Tile) (n : Nat) (l : List Tile) (i : Nat) :
    (mapTiles f n l)[i]? = l[i]?.map (f (n + i)) := by
  induction l generalizing n i with
  | nil => simp [mapTiles]
  | cons t l ih =>
    cases i with
    | zero => simp [mapTiles]
    | succ i => simp [mapTiles, ih, show n + 1 + i = n + (i + 1) by omega]

/-- Each tile after an abort (R132). -/
theorem abortTiles_tile (j : Job) (wt : Nat) (ref : Option Nat) (l : List Tile) (i : Nat) :
    (abortTiles j wt ref l)[i]? =
      l[i]?.map fun t => if j.covers wt i then { t with shown := none, clearDue := true, job := ref } else t := by
  simp [abortTiles, mapTiles_tile]

/-! ### Job numbers -/

/-- The number a new job takes is the lowest that no job holds, where fewer jobs stand than numbers are tried (R118, R122). -/
theorem lowestFree_spec (jobs : List Job) (fuel n : Nat) :
    (∀ m, n ≤ m → m < lowestFree jobs fuel n → ∃ o ∈ jobs, o.num = m) ∧
      (lowestFree jobs fuel n = n + fuel ∨ ∀ o ∈ jobs, o.num ≠ lowestFree jobs fuel n) := by
  induction fuel generalizing n with
  | zero => exact ⟨fun m a b => absurd b (by simp [lowestFree]; omega), .inl rfl⟩
  | succ fuel ih =>
    unfold lowestFree
    split
    · rename_i h
      refine ⟨fun m a b => ?_, ?_⟩
      · by_cases e : m = n
        · subst e
          simpa using h
        · exact (ih (n + 1)).1 m (by omega) b
      · rcases (ih (n + 1)).2 with k | k
        · exact .inl (by omega)
        · exact .inr k
    · rename_i h
      exact ⟨fun m a b => absurd b (by omega), .inr (by simpa using h)⟩

end Sys2Proof.Machine
end

