-- ==== Sys2Proof/Tests/Slice0.lean ====
section
/-! SUPPORT. Own tests: well-formedness, worked figures of the spec, one step of a command at a time, and for each statement
with hypotheses a state and operands that meet them. -/

namespace Sys2Proof.Tests

open Sys2Proof.Machine

/-! ### Small states -/

/-- The part running, everything else as after reset. -/
def running : State := { State.reset with phase := .running }

/-- A request with tag 7. -/
def asked (kind : Byte) (payload : List Byte) : Request := ⟨kind, 7, payload⟩

/-- A running part with one request at the head of its queue. -/
def having (kind : Byte) (payload : List Byte) : State :=
  { running with link := { running.link with requests := [asked kind payload] } }

/-- A running part whose head request is being written to flash. -/
def writing (kind : Byte) (w : FlashWrite) : State :=
  { running with link := { running.link with requests := [asked kind []], write := some w } }

/-- A clock that runs at a second of date 412, with D 180. -/
def at412 (second : Nat) : Clock := ⟨some ⟨second, 412, 180⟩, 0⟩

/-- The state after a command. -/
def after (c : Instr) (s : State) : State :=
  match exec c s with
  | .next t => t
  | _ => s

/-- The payloads of the replies waiting to be sent. -/
def answers (s : State) : List (List Byte) := s.link.replies.map (·.payload)

/-- A board entry that is PLANNED. -/
def planned (route trip : Nat) (second : Int) : Entry := ⟨⟨route, trip⟩, .current, 3, 1, some second, none, .planned⟩

/-- A PARTIAL job of the clock field. -/
def clockJob (state : JobState) : Job := ⟨0, .clock, .partialMode, 0, 14, 15, 0, state, [some 5, none]⟩

/-- A FULL job of all the glass. -/
def cleanJob (state : JobState) : Job := ⟨0, .clean, .fullMode, 0, 0, 15, 0, state, []⟩

/-- The Panel Drive in a booster state with job 0 and the supply ABOVE. -/
def driveIn (b : Booster) (ben : Bool) (granted : Option Nat) : Drive :=
  { Drive.afterReset with booster := b, ben := ben, granted := granted, supplyAbove := true }

/-- A running part with one job in hand and the Panel Drive in a booster state. -/
def inHand (j : Job) (b : Booster) (ben : Bool) : State :=
  { running with tiles := { running.tiles with jobs := [j] }, drive := driveIn b ben (some 0) }

/-- A timer that runs and whose count has reached zero. -/
def due (t : Timer) : Timer := { t with remaining := 0, running := true }

/-! ### Well-formedness -/

theorem test_wellFormed_refuses_no_bytes : (Instr.frameReceived []).wellFormed = false := by decide
theorem test_wellFormed_refuses_247_bytes : (Instr.frameReceived (List.replicate 247 0)).wellFormed = false := by
  simp only [Instr.wellFormed, List.length_replicate]
  decide
theorem test_wellFormed_takes_246_bytes : (Instr.frameReceived (List.replicate 246 0)).wellFormed = true := by
  simp only [Instr.wellFormed, List.length_replicate]
  decide
theorem test_decode_spells_nothing : decodeTableWord 8 0x12 = none := by decide

/-! ### Figures of the spec -/

set_option maxRecDepth 20000 in
/-- The registered check value of this CRC-16 over the digits 1 to 9 (R37, R183). -/
theorem test_crc16_of_nine_digits : crc16 [49, 50, 51, 52, 53, 54, 55, 56, 57] = 0x29B1 := by decide
set_option maxRecDepth 20000 in
/-- The registered check value of CRC-32/MPEG-2 over the digits 1 to 9 (R90). -/
theorem test_crc32_of_nine_digits : crcBytes 32 0x04C11DB7 0xFFFFFFFF [49, 50, 51, 52, 53, 54, 55, 56, 57] = 0x0376E6E7 := by
  decide
/-- 500 dF from 4,200 mV down to the floor 2,500 mV (09, the worked account of R142). -/
theorem test_usable_energy_of_the_example : usableEnergy 500 2500 4200 = 284750 := by decide
/-- The top of the range (R138). -/
theorem test_usable_energy_at_the_top : usableEnergy 1000 1800 5500 = 1350500 := by decide
/-- 6 × 12 × 150 is 10,800 µJ, 11 mJ (09 worked costs). -/
theorem test_frame_cost_rounds_up : frameCost 6 12 150 = 11 ∧ frameCost 16 24 150 = 58 ∧ frameCost 144 24 150 = 519 := by
  decide
/-- −10 and 55 degrees are in bands, −11 and 56 in none (R140). -/
theorem test_bands_at_the_ends : [-11, -10, 24, 25, 55, 56].map bandOf = [none, some 0, some 4, some 5, some 7, none] := by
  decide
/-- 13:07:20 with D 180 is second 36,440 (R61, worked sequence of 04). -/
theorem test_service_second_of_130720 : serviceSecond 47240 180 = 36440 := by decide
/-- 02:59:59 with D 180 belongs to the end of the service day (R61). -/
theorem test_service_second_before_the_day_start : serviceSecond 10799 180 = 86399 := by decide
/-- Board times of −1 to −60 belong to the minute before the day start (R61). -/
theorem test_wall_minute_of_a_negative_time : wallMinuteOf (-60) 180 = 179 ∧ wallMinuteOf (-1) 180 = 179 := by decide
/-- A difference of 90 s is ADJUST, 91 is JUMP, another date is DATE_CHANGE (R63). -/
theorem test_time_cases :
    timeCase (some ⟨100, 412, 180⟩) 190 412 = .adjust ∧ timeCase (some ⟨100, 412, 180⟩) 191 412 = .jump ∧
      timeCase (some ⟨191, 412, 180⟩) 100 412 = .jump ∧ timeCase (some ⟨100, 412, 180⟩) 190 413 = .dateChange ∧
      timeCase none 0 0 = .firstSet := by decide

/-- 05, "the countdown case": hold, confirm, follow. -/
theorem test_countdown_holds_confirms_follows :
    settleCountdown false (.countdown ⟨12, 4102⟩ 8 none) ⟨12, 4102⟩ (countdownMinutes 530) = .countdown ⟨12, 4102⟩ 8 (some 9) ∧
      settleCountdown false (.countdown ⟨12, 4102⟩ 8 (some 9)) ⟨12, 4102⟩ (countdownMinutes 520) =
        .countdown ⟨12, 4102⟩ 9 none ∧
      settleCountdown false (.countdown ⟨12, 4102⟩ 9 none) ⟨12, 4102⟩ (countdownMinutes 500) =
        .countdown ⟨12, 4102⟩ 8 none := by decide
/-- A delta of 29 s is DUE, of 30 s a countdown of 1 (R78). -/
theorem test_due_below_30_seconds :
    evaluateEntry 100 180 20 false .empty { planned 1 2 0 with pred := some ⟨129, 90⟩, state := .live } = .due ⟨1, 2⟩ ∧
      evaluateEntry 100 180 20 false .empty { planned 1 2 0 with pred := some ⟨130, 90⟩, state := .live } =
        .countdown ⟨1, 2⟩ 1 none := by decide
/-- Route 7 is the code 55, and route 412 the codes 52, 49, 50 (R82). -/
theorem test_route_digits : digitsOf 7 = [55] ∧ digitsOf 412 = [52, 49, 50] ∧ decimal 412 = [52, 49, 50] := by decide
/-- Wall minute 65 is 01:05 (R83). -/
theorem test_clock_codes : clockCodes 65 = [48, 49, 58, 48, 53] := by decide

/-- Trips 12/4102 and 31/9 tie on 36,900 and stand by route (01, "a morning stop"). -/
theorem test_board_order_by_route :
    sortEntries [planned 31 9 36900, planned 12 4102 36900, planned 7 220 36720] =
      [planned 7 220 36720, planned 12 4102 36900, planned 31 9 36900] := by decide
/-- DEPARTED 7/220 at 36,695 joins the gone list with expiry 36,750; at 36,751 its scheduled second is too old (R7). -/
theorem test_depart_joins_the_gone_list :
    departGone 36695 30 [] (planned 7 220 36720) = [⟨⟨7, 220⟩, 36750⟩] ∧ departGone 36751 30 [] (planned 7 220 36720) = [] := by
  decide
/-- A time of the old day is reduced and clamped at −120 (R23). -/
theorem test_rebase_clamps : [86400, 86380, 86000].map rebaseTime = [0, -20, -120] := by decide
/-- The later-committed bank, across the wrap of the commit numbers (R29). -/
theorem test_later_commit : aLater 8 7 = true ∧ aLater 7 8 = false ∧ aLater 0 65535 = true := by decide
/-- Of two banks dated 412 and 413, selection for 412 gives CURRENT and NEXT (R32). -/
theorem test_selection_gives_both_roles :
    let st : Store := ⟨⟨.valid, 412, 0, 0, 1, none⟩, ⟨.valid, 413, 0, 0, 2, none⟩, false, none⟩
    (st.select 412).holder .current = some .a ∧ (st.select 412).holder .next = some .b ∧ (st.select 412).reuse = false := by
  decide
/-- For 414 the greatest older date is kept as CURRENT with the reuse flag, and the other bank is freed (R32). -/
theorem test_selection_reuses_the_greatest_older :
    let st : Store := ⟨⟨.valid, 412, 0, 0, 1, none⟩, ⟨.valid, 413, 0, 0, 2, none⟩, false, none⟩
    (st.select 414).holder .current = some .b ∧ (st.select 414).reuse = true ∧ (st.select 414).bankA.state = .free := by
  decide
/-- Candidates 0, 4 and 9: a gap of three columns joins, one of four does not (R121). -/
theorem test_spans_join_over_three : spansOf (List.replicate 16 (.unknown none)) [0, 4, 9] = [(0, 4), (9, 9)] := by decide
/-- The five tests of a block come in their order (R35). -/
theorem test_block_tests_in_order :
    let u : Upload := ⟨.a, 412, 3, 1200, some 600, 0⟩
    blockFault u [] 2 [⟨0, 1, 0, 0, 0⟩] = some .sequence ∧ blockFault u [] 3 [⟨0, 1, 0, 0, 0⟩] = some .range ∧
      blockFault u [] 3 [⟨1, 1, 599, 0, 0⟩] = some .order ∧
      blockFault u [⟨1, 1, 5, 0, 0⟩] 3 [⟨1, 1, 600, 0, 0⟩] = some .duplicate ∧
      blockFault u [] 3 [⟨1, 1, 600, 0, 0⟩] = some .full := by decide
/-- A completion in PARTIAL at a limit of 20 (R125). -/
theorem test_ghost_limit :
    ((Tile.mk none none 19 false none).driven .partialMode 20).clearDue = true ∧
      ((Tile.mk none none 18 false none).driven .partialMode 20).clearDue = false ∧
      ((Tile.mk none none 63 true none).driven .partialMode 20).ghost = 63 := by decide

/-! ### One step of a command -/

theorem test_cleanNow_answers_one : answers (after .cleanNow (having 0x12 [])) = [[0, 8, 0, 1]] := by decide
theorem test_badKind_answers_two : answers (after .badKind (having 0x14 [9])) = [[2, 8, 0]] := by decide
theorem test_boardRead_range : answers (after .boardRead (having 0x0F [33, 1])) = [[4, 8, 0]] := by decide
theorem test_boardRead_beyond_the_board : answers (after .boardRead (having 0x0F [32, 8])) = [[0, 8, 0, 0, 0]] := by decide
/-- P16 is 5 after a reset to the defaults (R188). -/
theorem test_configGet_p16 : answers (after .configGet (having 0x04 [16])) = [[0, 8, 0, 16, 0, 0, 0, 5]] := by decide
theorem test_configGet_44 : answers (after .configGet (having 0x04 [44])) = [[4, 8, 0]] := by decide
/-- A window at its default: disabled, base 0, mask 0xFFFF, KEEP (R57). -/
theorem test_configGet_window :
    answers (after .configGet (having 0x04 [57])) = [[0, 8, 0, 57, 7, 0, 0, 0, 255, 255, 255]] := by decide
/-- A platform in the record of X0 is no assignment, and is reported as 255; W5 reports its own (R55). -/
theorem test_exclusion_window_reports_255 :
    Window.bytes 6 ⟨true, 1, 2, some 3⟩ = [6, 1, 0, 1, 0, 2, 255] ∧ Window.bytes 5 ⟨true, 1, 2, some 3⟩ = [5, 1, 0, 1, 0, 2, 3] := by
  decide
theorem test_predict_clock_unset :
    answers (after .predict (having 0x0A (List.replicate 12 0))) = [[5, 8, 0, 0, 0, 0, 0, 0, 0, 0]] := by decide
theorem test_noticePost_clock_unset :
    answers (after .noticePost (having 0x0B [1, 2, 3, 1, 0, 0, 9])) = [[5, 8, 0, 1, 0, 0]] := by decide
theorem test_noticeWithdraw_unknown : answers (after .noticeWithdraw (having 0x0C [1])) = [[14, 8, 0, 1, 0]] := by decide
theorem test_uploadAbort_no_upload : answers (after .uploadAbort (having 0x09 [])) = [[6, 8, 0]] := by decide
theorem test_tripBlock_no_upload :
    answers (after .tripBlock (having 0x07 (List.replicate 9 1))) = [[6, 8, 0, 0, 0, 0]] := by decide
theorem test_uploadBegin_erases_a :
    (after .uploadBegin (having 0x06 [1, 156])).link.write = some (.bankErase .a 412) := by decide
theorem test_configWriteEnd_sets_p16 :
    let t := after (.configWriteEnd true) (writing 0x03 (.config 16 30))
    t.cfg.param 16 = 30 ∧ t.timers.rotation.reload = 1800 ∧ answers t = [[0, 8, 0, 16, 0, 0, 0, 30]] := by decide
theorem test_frameGapTimeout_hunts :
    (after .frameGapTimeout { running with link := { running.link with receiver := .frame [1] } }).link.receiver = .hunt := by
  decide
/-- A STATUS frame with tag 1, its check computed by hand from R183. -/
theorem test_frame_of_status : (Reply.mk 1 1 []).frame = [0xA5, 0, 1, 1] ++ b16 (crc16 [0, 1, 1]).toNat := by decide
theorem test_brownout_in_off : (after .brownout { running with drive := driveIn .off false none }).drive.supplyAbove = false := by
  decide
theorem test_cleanMatch_starts_the_rise :
    let s := { inHand (cleanJob .granted) .off false with drive := { driveIn .off false (some 0) with exchange := some .clean } }
    (after (.identityExchange (some (16, 9))) s).drive.booster = .rising ∧
      (after (.identityExchange (some (16, 8))) s).drive.granted = none := by decide
theorem test_elapsedSecond_counts_in_a_power_on : (after .elapsedSecond running).tiles.elapsed = 1 := by decide

/-! ### States and operands that meet the hypotheses of each statement, clause by clause -/

/-- A state that meets every invariant: RUNNING at 36,420, two entries and a gone record, one queued job, sampled once, one
request, a frame gap in front of the queue. -/
def sound : State :=
  { having 0x01 [] with
    clock := at412 36420
    board := ⟨[planned 7 220 36720, planned 12 4102 36900], [⟨⟨31, 9⟩, 36930⟩]⟩
    tiles := { running.tiles with jobs := [clockJob .queued] }
    energy := { running.energy with vs := some 4200, temp := some 18, estimate := 1350500 }
    pending := [.frameGapTimeout] }

theorem witness_StepExecutesFrontCommand : State.reset.pending = [] := rfl
theorem witness_StepKeepsRequestQueueBounded : sound.link.sound ∧ ∃ t, step sound = .next t := ⟨by unfold Link.sound; decide, _, rfl⟩
theorem witness_StepKeepsBoardKeysDistinct : sound.board.sound ∧ ∃ t, step sound = .next t :=
  ⟨by unfold Board.sound; decide, _, rfl⟩
theorem witness_StepKeepsBoardOrdered : sound.board.sound ∧ sound.board.ordered ∧ ∃ t, step sound = .next t :=
  ⟨by unfold Board.sound; decide, by unfold Board.ordered; decide, _, rfl⟩
theorem witness_StepKeepsRefreshQueueSound : sound.queueSound ∧ ∃ t, step sound = .next t :=
  ⟨by simp [State.queueSound, sound, running, State.reset, State.cleared, Drive.afterReset, clockJob, Job.inHand, having], _, rfl⟩
theorem witness_StepKeepsWantedSignaturesOfThePixels : sound.imageSound ∧ ∃ t, step sound = .next t :=
  ⟨⟨List.length_replicate, List.length_replicate, rfl, fun i t w h k => by
    rw [List.eq_of_mem_replicate (List.mem_of_getElem? h)] at k
    cases k⟩, _, rfl⟩
theorem witness_StepKeepsBoosterLinesSound : sound.drive.sound ∧ ∃ t, step sound = .next t :=
  ⟨by unfold Drive.sound; decide, _, rfl⟩
theorem witness_StepKeepsUnsetClockWithoutRoles :
    State.unsetSound { sound with clock := ⟨none, 0⟩, board := ⟨[], []⟩ } ∧
      ∃ t, step { sound with clock := ⟨none, 0⟩, board := ⟨[], []⟩ } = .next t :=
  ⟨fun _ => ⟨rfl, rfl, rfl, rfl, rfl⟩, _, rfl⟩
theorem witness_StepKeepsConfigurationAndEstimateInRange :
    sound.configSound ∧ sound.energy.sound ∧ ∃ t, step sound = .next t :=
  ⟨⟨by decide, fun _ h => nomatch h⟩, by unfold Energy.sound; decide, _, rfl⟩
theorem witness_StepKeepsTimerPeriods : sound.timersSound ∧ ∃ t, step sound = .next t :=
  ⟨by unfold State.timersSound; decide, _, rfl⟩
/-- The sound state with glyph 65, 12 px wide, and text 0 of that one glyph present. -/
def lettered : State :=
  { sound with
    flash := { sound.flash with texts := [(0, .good [65])], glyphs := [(65, .good ⟨12, [0xFFF0000000]⟩)] }
    presence := ⟨[0], [65]⟩ }

theorem imageSound_of_start {s : State} (t : s.tiles.tiles = running.tiles.tiles) (w : s.tiles.wt = 16) (h : s.tiles.ht = 9)
    (c : s.composer = running.composer) : s.imageSound := by
  refine ⟨by rw [t, w, h]; exact List.length_replicate, by rw [c, w, h]; exact List.length_replicate, by rw [c, h]; rfl,
    fun i x v k e => ?_⟩
  rw [t] at k
  rw [List.eq_of_mem_replicate (List.mem_of_getElem? k)] at e
  cases e

theorem lettered_image : lettered.imageSound ∧ lettered.configSound ∧ lettered.glyphsSound ∧ lettered.sizeDiffers = false := by
  refine ⟨imageSound_of_start rfl rfl rfl rfl, ⟨by decide, fun _ h => nomatch h⟩, ⟨fun code g h => ?_, fun _ _ h => nomatch h⟩,
    by decide⟩
  unfold State.glyphEntry at h
  split at h
  · rename_i k
    have e : code = 65 := by simpa [lettered] using k
    subst e
    cases h
    rfl
  · cases h

theorem witness_StepKeepsTablesAndCountsSound :
    lettered.flash.sound ∧ lettered.glyphsSound ∧ lettered.countsSound ∧ ∃ t, step lettered = .next t :=
  ⟨⟨rfl, rfl⟩, lettered_image.2.2.1, ⟨fun t ht => by rw [List.eq_of_mem_replicate ht]; decide, by decide⟩, _, rfl⟩
theorem witness_StepLeavesNoAttemptWaiting : sound.attemptWaiting = false ∧ ∃ t, step sound = .next t := ⟨rfl, _, rfl⟩

/-- Seven requests leave room for the eighth; eight leave none. -/
theorem witness_GoodFrameIsQueuedOrAnswered :
    running.powered = true ∧ running.link.receiver = .hunt ∧ (Reply.mk 1 1 (List.replicate 240 0)).payload.length ≤ 240 ∧
      (List.replicate 7 (asked 1 [])).length < 8 ∧ 8 ≤ (List.replicate 8 (asked 1 [])).length :=
  ⟨rfl, rfl, by simp only [List.length_replicate]; decide, by decide, by decide⟩
theorem witness_BadFramesLeaveNoTrace :
    running.powered = true ∧ running.link.receiver = .hunt ∧ u8 [0, 1, 1, 0, 0] 0 ≤ 240 ∧
      [0, 1, 1, 0, 0].length = u8 [0, 1, 1, 0, 0] 0 + 5 ∧
      (crc16 ([0, 1, 1, 0, 0].take 3)).toNat ≠ u16 [0, 1, 1, 0, 0] 3 := by decide
theorem witness_UnfitRequestsAreRefused :
    (having 0 []).headIs (asked 0 []) [] ∧ (asked 0 []).kind.toNat = 0 ∧
      (having 0x14 []).headIs (asked 0x14 []) [] ∧ 0x13 < (asked 0x14 []).kind.toNat ∧
      (having 0x07 (List.replicate 8 0)).headIs (asked 0x07 (List.replicate 8 0)) [] ∧
      Instr.tripBlock.requestKind = some 7 ∧ lengthAllowed 7 8 = false ∧ (having 0x07 []).attemptWaiting = false :=
  ⟨⟨rfl, rfl⟩, rfl, ⟨rfl, rfl⟩, by decide, ⟨rfl, rfl⟩, rfl, rfl, rfl⟩
theorem witness_RepliesLeaveInOrderAndResetComesFirst :
    State.link { running with link := { running.link with replies := [⟨0x81, 7, []⟩, ⟨0x93, 8, []⟩], resetAfter := some 2 } } =
        ⟨.hunt, [], none, some 2, ⟨0x81, 7, []⟩ :: [⟨0x93, 8, []⟩], false, false⟩ ∧
      (having 0x13 []).headIs (asked 0x13 []) [] ∧ (asked 0x13 []).kind = 0x13 ∧ (asked 0x13 []).payload = [] :=
  ⟨rfl, ⟨rfl, rfl⟩, rfl, rfl⟩
/-- With and without a clean, with a HOLD class latched, and a queue of a job in hand and a waiting one. -/
theorem witness_CleanNowQueuesOneClean :
    (having 0x12 []).headIs (asked 0x12 []) [] ∧ (having 0x12 []).attemptWaiting = false ∧
      (having 0x12 []).tiles.hasClean = false ∧
      TileMap.hasClean { running.tiles with jobs := [cleanJob .queued] } = true ∧
      State.holdLatched { having 0x12 [] with faults := { running.faults with latched := 2 } } = true ∧
      (let tm := { running.tiles with jobs := [clockJob .driving, { clockJob .queued with num := 1 }] };
        tm.hasClean = false ∧ tm.jobs.length ≤ 16 ∧ (tm.jobs.map (·.num)).Nodup) :=
  ⟨⟨rfl, rfl⟩, rfl, rfl, rfl, by decide, by decide⟩
/-- A clean behind a driving job takes number 1, and the waiting job 1 is gone (R122, R128). -/
theorem test_clean_absorbs_the_queue :
    let tm : TileMap := { running.tiles with
      wt := 2, ht := 1, jobs := [clockJob .driving, { clockJob .queued with num := 1 }]
      tiles := [.unknown (some 0), .unknown (some 1), .unknown none] }
    tm.queueClean.1.jobs.map (fun j => (j.num, j.cls)) = [(0, .clock), (1, .clean)] ∧
      tm.queueClean.1.tiles.map (·.job) = [some 0, some 1, some 1] := by decide
theorem witness_StatusReportsAndEmptiesNews : (having 0x01 []).headIs (asked 0x01 []) [] := ⟨rfl, rfl⟩
/-- The ends of both ranges, and one past each. -/
theorem witness_BoardReadReportsPositions :
    (having 0x0F [32, 8]).headIs (asked 0x0F [32, 8]) [] ∧ (1 ≤ (32 : Byte).toNat ∧ (32 : Byte).toNat ≤ 32) ∧
      (1 ≤ (8 : Byte).toNat ∧ (8 : Byte).toNat ≤ 8) ∧ (having 0x0F [33, 9]).headIs (asked 0x0F [33, 9]) [] ∧
      ¬(33 : Byte).toNat ≤ 32 ∧ ¬(9 : Byte).toNat ≤ 8 ∧ (having 0x0F [1]).headIs (asked 0x0F [1]) [] ∧
      (asked 0x0F [1]).payload.length ≠ 2 :=
  ⟨⟨rfl, rfl⟩, by decide, by decide, ⟨rfl, rfl⟩, by decide, by decide, ⟨rfl, rfl⟩, by decide⟩
theorem witness_FaultReadReportsRecords :
    (having 0x10 []).headIs (asked 0x10 []) [] ∧ (having 0x10 [0]).headIs (asked 0x10 [0]) [] ∧ (asked 0x10 [0]).payload ≠ [] :=
  ⟨⟨rfl, rfl⟩, ⟨rfl, rfl⟩, by decide⟩
theorem witness_FaultClearEmptiesTheUnit :
    (having 0x11 []).headIs (asked 0x11 []) [] ∧ (having 0x11 []).attemptWaiting = false ∧
      (having 0x11 []).holdLatched = false ∧ (having 0x11 []).sizeDiffers = false := ⟨⟨rfl, rfl⟩, rfl, by decide, by decide⟩
/-- A class that is latched and one that is not; the count at its top and one below it. -/
theorem witness_RaiseFollowsFourSteps :
    (0x0002 &&& FaultCode.panel201.cls.bit ≠ 0) ∧ (0x0002 &&& FaultCode.drive311.cls.bit = 0) ∧ 65534 < 65535 := by decide

/-- A rise of job 0 with two retries used. -/
def rising : State :=
  { inHand (clockJob .granted) .rising true with
    drive := { driveIn .rising true (some 0) with retriesUsed := 2 }
    timers := { running.timers with rise := running.timers.rise.start, retry := running.timers.retry.start } }

theorem witness_RiseExpiryActsOnBoosterGood :
    rising.timers.rise.running = true ∧ rising.drive.booster = .rising ∧ rising.drive.granted = some 0 ∧
      rising.tiles.job 0 = some (clockJob .granted) ∧ rising.cfg.param 26 ≤ rising.drive.retriesUsed ∧
      1 < rising.cfg.param 26 ∧ rising.classHolds .booster = true :=
  ⟨rfl, rfl, rfl, rfl, by decide, by decide, by decide⟩
theorem witness_RetryPauseRaisesTheBoosterAgain :
    rising.timers.retry.running = true ∧ rising.drive.booster = .rising ∧ rising.timersSound :=
  ⟨rfl, rfl, by unfold State.timersSound; decide⟩
/-- Expiring with a count of zero, not expiring one second before, and meeting a grant in either order. -/
theorem witness_LingerExpiryLowersTheBooster :
    let s : State := { running with
      drive := driveIn .ready true none, timers := { running.timers with linger := due running.timers.linger } }
    s.timers.linger.running = true ∧ s.timers.linger.remaining = 0 ∧ s.drive.booster = .ready ∧ s.attemptWaiting = false ∧
      s.drive.exchange = none ∧ { s.drive with exchange := some .clean }.exchange ≠ none ∧
      { s.timers.linger with remaining := 1 }.remaining ≠ 0 ∧ s.drive.supplyAbove = true ∧
      State.schedule { s with schedule := [true] } = true :: [] ∧ State.schedule { s with schedule := [false] } = false :: [] :=
  ⟨rfl, rfl, rfl, rfl, rfl, by decide, by decide, rfl, rfl, rfl⟩
/-- A grant in READY that meets a due linger expiry: the expiry first, the rise; the grant first, the drive (R160). -/
theorem test_linger_expiry_meets_a_grant :
    let s (first : Bool) : State := { inHand (clockJob .granted) .ready true with
      timers := { running.timers with linger := due running.timers.linger }, schedule := [first] }
    (s true).meetBooster.drive.booster = .rising ∧ (s false).meetBooster.drive.booster = .driving := by decide

/-- Job 0 being driven, one frame of two done. -/
def driving : State :=
  { inHand (clockJob .driving) .driving true with
    drive := { driveIn .driving true (some 0) with frameCount := 2, framesDriven := 1 } }

/-- Tile 14 lies in the span and tile 13 does not, in PARTIAL; the full clean covers every tile, in FULL. A row of UNKNOWN tiles is
one span, with and without a full clean that waits, and one job is queued for it. -/
theorem witness_FrameEndCountsAndCompletes :
    (driving.drive.booster = .driving ∧ driving.drive.cutFrame = false ∧ driving.drive.brownedOut = false ∧
        driving.drive.exchange = none ∧ driving.drive.held = [] ∧ driving.attemptWaiting = false ∧
        driving.drive.granted = some 0 ∧ driving.tiles.job 0 = some (clockJob .driving)) ∧
      (driving.drive.framesDriven + 1 = driving.drive.frameCount ∧ driving.sizeDiffers = false ∧ driving.timersSound ∧
        driving.configSound) ∧ 0 + 1 ≠ 2 ∧
      ((clockJob .driving).covers 16 14 = true ∧ (clockJob .driving).covers 16 13 = false ∧
        (clockJob .driving).mode = .partialMode ∧ (cleanJob .driving).covers 16 143 = true ∧
        (cleanJob .driving).mode = .fullMode ∧ driving.tiles.tiles[14]? = some (.unknown none)) ∧
      (TileMap.queuedClean { driving.tiles with jobs := [cleanJob .queued] } ≠ none ∧ driving.tiles.queuedClean = none ∧
        spansOf (driving.tiles.rowTiles 0) (candidates 0 (driving.tiles.rowTiles 0)) = [(0, 15)] ∧
        (driving.tiles.formRow .notice 0).1.jobs.map (fun j => (j.num, j.first, j.last)) = [(0, 14, 15), (1, 0, 15)] ∧
        JobClass.notice ≠ .clean ∧ JobClass.noticeUrgent ≠ .clean) :=
  ⟨⟨rfl, rfl, rfl, rfl, rfl, rfl, rfl, rfl⟩,
    ⟨rfl, by decide, by unfold State.timersSound; decide, by decide, fun _ h => nomatch h⟩, by decide,
    ⟨rfl, rfl, rfl, rfl, rfl, rfl⟩, by decide⟩
theorem witness_BrownoutAbortsAtTheFrameEnd :
    let s : State := { driving with drive := { driving.drive with brownedOut := true, supplyAbove := false } }
    s.drive.booster = .driving ∧ s.drive.cutFrame = false ∧ s.drive.brownedOut = true ∧ s.drive.supplyAbove = false ∧
      s.drive.exchange = none ∧ s.drive.held = [] ∧ s.attemptWaiting = false ∧ s.drive.granted = some 0 ∧
      s.tiles.job 0 = some (clockJob .driving) ∧ s.sizeDiffers = false :=
  ⟨rfl, rfl, rfl, rfl, rfl, rfl, rfl, rfl, rfl, by decide⟩
/-- A cut frame with nothing granted and with a job that waits for its end, after a brownout or none, at each supply level. -/
theorem witness_CutFrameEndsWithDrive312 :
    ∀ brownedOut above, let s (granted : Option Nat) : State := { inHand (clockJob .granted) .driving true with
        drive := { driveIn .driving true granted with cutFrame := true, brownedOut := brownedOut, supplyAbove := above } }
      (∀ granted, (s granted).drive.booster = .driving ∧ (s granted).drive.cutFrame = true ∧ (s granted).drive.exchange = none ∧
        (s granted).drive.held = [] ∧ (s granted).attemptWaiting = false ∧ (s granted).drive.brownedOut = brownedOut ∧
        (s granted).drive.supplyAbove = above ∧ (s granted).drive.granted = granted ∧
        (s granted).tiles.job 0 = some (clockJob .granted)) ∧
      (s (some 0)).timersSound ∧ (s (some 0)).configSound :=
  fun _ _ => ⟨fun _ => ⟨rfl, rfl, rfl, rfl, rfl, rfl, rfl, rfl, rfl⟩,
    (by unfold State.timersSound; decide : running.timersSound), (by decide : running.cfg.inRange = true), fun _ h => nomatch h⟩
/-- Each booster state at each level, a rise abandoned with a HOLD class latched, a return with and without a waiting clean, both
edges during an exchange and where they do not arise, and readings at P20, one below and one above. -/
theorem witness_SupplyLevelActsByBoosterState :
    (∀ b, let s := inHand (clockJob .granted) b true
      s.powered = true ∧ s.drive.supplyAbove = true ∧ s.drive.exchange = none ∧ s.drive.held = [] ∧
        s.attemptWaiting = false ∧ s.drive.booster = b) ∧
    State.holdLatched { inHand (clockJob .granted) .rising true with faults := { running.faults with latched := 2 } } = true ∧
    ((inHand (clockJob .granted) .off false).tiles.job 0 = some (clockJob .granted) ∧
      (inHand (clockJob .granted) .off false).tiles.queuedClean = none ∧
      TileMap.job { running.tiles with jobs := [clockJob .granted, { cleanJob .queued with num := 1 }] } 0 =
        some (clockJob .granted) ∧
      TileMap.queuedClean { running.tiles with jobs := [clockJob .granted, { cleanJob .queued with num := 1 }] } =
        some { cleanJob .queued with num := 1 }) ∧
    (∀ granted, let s : State := { running with drive := { Drive.afterReset with granted := granted } }
      s.powered = true ∧ s.drive.supplyAbove = false ∧ s.drive.exchange = none ∧ s.drive.held = [] ∧
        s.attemptWaiting = false ∧ s.drive.booster = .off ∧ s.drive.granted = granted) ∧
    (∀ level, let s : State := { running with drive := { Drive.afterReset with exchange := some .clean, supplyAbove := level } }
      s.powered = true ∧ s.above = level ∧ s.drive.exchange ≠ none ∧ State.reset.powered = false) ∧
    running.cfg.param 20 = 2500 :=
  ⟨fun b => ⟨rfl, rfl, rfl, rfl, rfl, rfl⟩, by decide, by decide, fun _ => ⟨rfl, rfl, rfl, rfl, rfl, rfl, rfl⟩,
    fun _ => ⟨rfl, rfl, fun h => (nomatch h : False), rfl⟩, rfl⟩
/-- A reading below P20 reports a brownout, one above a rise, and one equal to it nothing. -/
theorem test_comparator_at_p20 :
    [2499, 2500, 2501].map (fun mv => (State.seeVoltage { running with drive := driveIn .off false none } mv).drive.supplyAbove) =
        [false, true, true] ∧
      [2499, 2500, 2501].map (fun mv => (State.seeVoltage running mv).drive.supplyAbove) = [false, false, true] := by decide
/-- A full clean granted from OFF, its exchange in progress. -/
def exchanging : State :=
  { inHand (cleanJob .granted) .off false with drive := { driveIn .off false (some 0) with exchange := some .clean } }

/-- A fitting answer and one that does not fit, PANEL at HOLD and at CONTINUE, each booster state at each level, and a linger expiry
that waits. -/
theorem witness_IdentityDecidesTheCleansGrant :
    (∀ b above, let s : State := { exchanging with
        drive := { driveIn b true (some 0) with exchange := some .clean, supplyAbove := above } };
      s.drive.exchange = some .clean ∧ s.drive.held = [] ∧ s.drive.granted = some 0 ∧ s.attemptWaiting = false ∧
        s.drive.booster = b ∧ s.drive.supplyAbove = above ∧ s.tiles.job 0 = some (cleanJob .granted) ∧
        s.timers.linger.running = false) ∧
    ((16 : Byte).toNat = exchanging.tiles.wt ∧ (9 : Byte).toNat = exchanging.tiles.ht ∧
      ¬(8 : Byte).toNat = exchanging.tiles.ht ∧ (exchanging.cfg.param 39).testBit 1 = true ∧
      ((exchanging.cfg.setParam 39 4).param 39).testBit 1 = false) ∧
    (let s : State := { exchanging with
        drive := { exchanging.drive with booster := .ready, ben := true, held := [.lingerExpiry] }, schedule := [true] };
      s.drive.exchange = some .clean ∧ s.drive.held = [.lingerExpiry] ∧ s.drive.granted = some 0 ∧
        s.attemptWaiting = false ∧ s.drive.booster = .ready ∧ s.drive.supplyAbove = true ∧ s.schedule = true :: []) :=
  ⟨fun _ _ => ⟨rfl, rfl, rfl, rfl, rfl, rfl, rfl, rfl⟩, by decide, rfl, rfl, rfl, rfl, rfl, rfl, rfl⟩
/-- With PANEL at CONTINUE a mismatch raises PANEL/201 and the clean goes on (R171, second row). -/
theorem test_mismatch_at_continue :
    let t := after (.identityExchange (some (16, 8))) { exchanging with cfg := exchanging.cfg.setParam 39 4 }
    t.drive.booster = .rising ∧ t.faults.last = some ⟨.panel201, none⟩ ∧ t.drive.granted = some 0 := by decide
theorem witness_StartUpEndsWithTheClean :
    let s : State := { State.reset with phase := .startUp, drive := { Drive.afterReset with exchange := some .startUp } }
    s.drive.exchange = some .startUp ∧ s.drive.held = [] ∧ s.attemptWaiting = false ∧ s.clock.time = none ∧
      s.link.write = none ∧ s.link.resetAfter = none ∧ ¬(8 : Byte).toNat = s.tiles.ht :=
  ⟨rfl, rfl, rfl, rfl, rfl, rfl, by decide⟩
/-- A running part with one queued job in a booster state, the store well filled, at 18 degrees. -/
def choosing (j : Job) (b : Booster) (above : Bool) : State :=
  { running with
    tiles := { running.tiles with jobs := [j] }
    energy := { running.energy with temp := some 18, estimate := 284750 }
    drive := { driveIn b false none with supplyAbove := above } }
/-- The same with a change of size to 6 by 3 pending. -/
def resizing : State :=
  { choosing (cleanJob .queued) .off true with cfg := (running.cfg.setParam 1 6).setParam 2 3 }

/-- One queued job at the lower end of the drivable temperatures, the store just enough: 9 + 40 + 100,000 (R141, R142); a grant in
each booster state, of a clean, and of a clean with a change of size. -/
theorem witness_GrantMeetsEveryCondition :
    ((∀ b above, let s := choosing (clockJob .queued) b above;
        s.drive.booster = b ∧ s.drive.supplyAbove = above ∧ s.timers.linger.due = false ∧
          (s.tiles.jobs.map (·.num)).Nodup ∧ s.phase = .running ∧ s.holdLatched = false ∧ (clockJob .queued).cls ≠ .clean ∧
          s.chooseJob = some (clockJob .queued, 4)) ∧
      (choosing (cleanJob .queued) .ready true).chooseJob = some (cleanJob .queued, 4) ∧
      (choosing (cleanJob .queued) .ready true).sizeDiffers = false ∧
      resizing.chooseJob = some (cleanJob .queued, 4) ∧ resizing.sizeDiffers = true ∧ resizing.cfg.inRange = true) ∧
    State.chooseJob { running with
        tiles := { running.tiles with jobs := [clockJob .queued] }
        energy := { running.energy with temp := some (-10), estimate := 100049 } } = some (clockJob .queued, 0) ∧
      State.chooseJob { running with
        tiles := { running.tiles with jobs := [clockJob .queued] }
        energy := { running.energy with temp := some (-10), estimate := 100048 } } = none :=
  ⟨⟨fun b above => by cases b <;> cases above <;> decide, by decide, by decide, by decide, by decide, by decide⟩, by decide, by decide⟩
/-- 09, the worked account: a clock field at 18 degrees from OFF costs 44 mJ and leaves 284,706, with the frame count 12 of band 4. -/
theorem test_grant_of_a_clock_field :
    let t := (choosing (clockJob .queued) .off true).attempt
    t.energy.estimate = 284706 ∧ t.drive.frameCount = 12 ∧ t.drive.booster = .rising ∧ t.drive.granted = some 0 := by decide
/-- A ROW job queued at 940 has the effective priority 2 at 1,000, and a CLOCK job queued at 990 has 8 (09, three jobs in a weak
store). -/
theorem test_effective_priorities :
    { clockJob .queued with cls := .row, enqueue := 940 }.priority 1000 = 2 ∧
      { clockJob .queued with enqueue := 990 }.priority 1000 = 8 := by decide
/-- A due sample, one that is not due, readings beside each limit, and a job in hand or none. -/
theorem witness_SampleSetsTheAccount :
    let s : State := { inHand (clockJob .granted) .off false with
      timers := { running.timers with sample := due running.timers.sample } }
    (s.timers.sample.running = true ∧ s.timers.sample.remaining = 0 ∧ s.attemptWaiting = false) ∧
      (s.above = decide ((s.cfg.param 20 : Int) < 2501)) ∧ (s.seeVoltage 2501).tiles.handJob ≠ none ∧
      State.drive { running with drive := Drive.afterReset } = Drive.afterReset ∧ Drive.afterReset.granted = none ∧
      (-11 : Int) < -10 ∧ (55 : Int) < 56 ∧ lowLevel (s.cfg.param 21) = 2900 ∧ 2899 < 2900 ∧ s.energy.lowFlag = false ∧
      { s.timers.sample with remaining := 1 }.remaining ≠ 0 :=
  ⟨⟨rfl, rfl, rfl⟩, by decide, by decide, rfl, rfl, by decide, by decide, by decide, by decide, rfl, by decide⟩
theorem witness_UsableEnergyIsExact : 1800 ≤ 1800 ∧ 1800 < 1801 ∧ usableEnergy 1000 1800 1800 = 0 ∧
    usableEnergy 1000 1800 1801 = 180 := by decide
/-- The last second of a wall day, one past each limit, and a clock in each of the cases; two banks of one date committed one after
the other, and banks of an older date, the date and the next. -/
theorem witness_TimeSetAdoptsTheTime :
    ((having 0x02 [23, 59, 59, 1, 156]).headIs (asked 0x02 [23, 59, 59, 1, 156]) [] ∧
      (having 0x02 [24, 0, 0, 1, 156]).headIs (asked 0x02 [24, 0, 0, 1, 156]) [] ∧ ¬(24 : Byte).toNat ≤ 23 ∧
      (having 0x02 []).attemptWaiting = false ∧ (having 0x02 []).clock.time = none ∧
      serviceSecond 86399 180 = 75599 ∧
      timeCase (some ⟨75509, 412, 180⟩) 75599 412 = .adjust ∧ timeCase (some ⟨75508, 412, 180⟩) 75599 412 = .jump ∧
      timeCase (some ⟨75599, 411, 180⟩) 75599 412 = .dateChange) ∧
    (let same (a b : Nat) : Store := ⟨⟨.valid, 412, 0, 0, a, none⟩, ⟨.valid, 412, 0, 0, b, none⟩, false, none⟩;
      (same 0 65535).supersede.bankB.state = .free ∧ (same 65535 0).supersede.bankA.state = .free) ∧
    (let two (a b : Nat) : Store := ⟨⟨.valid, a, 0, 0, 1, none⟩, ⟨.valid, b, 0, 0, 2, none⟩, false, none⟩;
      (two 412 413).supersede = two 412 413 ∧ (two 413 414).holder .current = none ∧ (two 410 411).supersede = two 410 411) ∧
    (1439 < 1440 ∧ running.cfg.param 40 < 1440 ∧ running.cfg.param 41 < 1440) :=
  ⟨⟨⟨rfl, rfl⟩, ⟨rfl, rfl⟩, by decide, rfl, rfl, by decide, by decide, by decide, by decide⟩, by decide, by decide, by decide⟩
/-- The window from 18:00 to 06:00: its last minute and its first are lit, the ones beside them are not; none is where both are equal
(R146). -/
theorem test_frontlight_window :
    [1079, 1080, 1439, 0, 359, 360].map running.cfg.lit = [false, true, true, true, true, false] ∧
      [0, 1080, 1081].map (running.cfg.setParam 41 1080).lit = [false, false, false] := by decide
/-- Between minutes, at a minute, and at the minutes of P18, P40 and P41; a refill with room for every trip. -/
theorem witness_SecondEventAdvancesTheClock :
    running.attemptWaiting = false ∧ running.clock.time = none ∧ (86398 + 1) % 60 ≠ 0 ∧ (36419 + 1) % 60 = 0 ∧
      (3599 + 1 + 60 * 180) % 86400 / 60 = running.cfg.param 18 ∧
      (53999 + 1 + 60 * 180) % 86400 / 60 = running.cfg.param 40 ∧
      (10799 + 1 + 60 * 180) % 86400 / 60 = running.cfg.param 41 ∧
      (let s : State := { sound with
          flash := { sound.flash with bankA := ⟨.erased, [⟨5, 6, 608, 3, 1⟩]⟩ }
          store := { sound.store with bankA := ⟨.valid, 412, 1, 0, 1, some .current⟩ } };
        s.clock.time = some ⟨36420, 412, 180⟩ ∧ ⟨5, 6, 608, 3, 1⟩ ∈ s.roleTrips .current ∧
          36420 - s.cfg.param 7 ≤ 608 * 60 ∧ 608 * 60 ≤ 36420 + s.cfg.param 6 * 60 ∧ (s.cfg.param 4).testBit 1 = true ∧
          s.board.isGone ⟨5, 6⟩ = false ∧
          s.board.entries.length + (s.roleTrips .current).length + (s.roleTrips .next).length ≤ 32) := by decide
/-- The last second of the day, on a sound board, and days that start at the minutes of P18 and P41. -/
theorem witness_RolloverTurnsTheDay :
    State.clock { running with clock := at412 86399 } = ⟨some ⟨86399, 412, 180⟩, 0⟩ ∧ running.attemptWaiting = false ∧
      sound.board.sound ∧ 60 * 240 % 86400 / 60 = running.cfg.param 18 ∧ 60 * 360 % 86400 / 60 = running.cfg.param 41 :=
  ⟨rfl, rfl, by unfold Board.sound; decide, by decide, by decide⟩
/-- 01, the worked rollover: 9/15 leaves without a gone record, 3/7001 and 3/7002 stay on the new scale, 4/510 keeps 10 s. -/
theorem test_rebase_of_the_worked_rollover :
    Board.rebase ⟨[planned 9 15 86360,
        { planned 3 7001 86340 with pred := some ⟨86460, 86350⟩, state := .live },
        { planned 3 7002 86700 with origin := .next }],
      [⟨⟨3, 6999⟩, 86380⟩, ⟨⟨4, 510⟩, 86410⟩]⟩ 30 =
      ⟨[{ planned 3 7001 (-60) with pred := some ⟨60, -50⟩, state := .live }, planned 3 7002 300], [⟨⟨4, 510⟩, 10⟩]⟩ := by
  decide
/-- Below the top of the elapsed-second count and at it, without power, and with a timer that runs beside one that is stopped. -/
theorem witness_ElapsedSecondCounts :
    running.powered = true ∧ running.tiles.elapsed ≠ 4294967295 ∧
      TileMap.elapsed { running.tiles with elapsed := 4294967295 } = 4294967295 ∧ State.reset.powered = false ∧
      running.timers.rotation.start.running = true ∧ running.timers.linger.running = false :=
  ⟨rfl, by decide, rfl, rfl, rfl, rfl⟩
/-- Every timer that counts in seconds counts; the rise timer does not (R67). -/
theorem test_elapsedSecond_counts_the_seconds_timers :
    let t := (after .elapsedSecond { running with timers := { running.timers with
      rotation := running.timers.rotation.start, upload := running.timers.upload.start, rise := running.timers.rise.start } }).timers
    t.rotation.remaining = 299 ∧ t.upload.remaining = 599 ∧ t.linger.remaining = 0 ∧ t.rise.remaining = 50 := by decide
theorem witness_SweepAgesBoardAndNotices :
    let s : State := { sound with timers := { sound.timers with sweep := due sound.timers.sweep } }
    s.timers.sweep.running = true ∧ s.timers.sweep.remaining = 0 ∧ s.attemptWaiting = false ∧
      s.clock.time = some ⟨36420, 412, 180⟩ ∧ sound.timers.sweep.start.remaining ≠ 0 ∧ s.board.gone.length ≤ 32 ∧
      running.clock.time = none ∧ running.attemptWaiting = false := ⟨rfl, rfl, rfl, rfl, by decide, by decide, rfl, rfl⟩
/-- A sweep, and then a rotation whose timer the sweep's expiry of a notice has restarted: the position does not advance again
(R112, R113). -/
theorem test_sweep_restarts_the_rotation :
    let s : State := { running with
      clock := at412 100
      notices := ⟨[⟨1, 40, 1, none⟩, ⟨2, 40, 1, some ⟨412, 100⟩⟩, ⟨3, 40, 1, none⟩], some 1⟩
      timers := { running.timers with sweep := due running.timers.sweep, rotation := due running.timers.rotation } }
    let t := (s.decideNotices (s.notices.list.filter fun n => !n.expired 412 100)).1
    t.notices.position = some 1 ∧ t.timers.rotation.due = false ∧ (after .rotation t).notices.position = some 1 := by decide
/-- The first step of the sweep worked in 05, and the ends of each branch: delta 29 and 30, m 20 and 21 at P09 20; a line that just
fits and one that does not, and a glyph that is absent. -/
theorem witness_SweepEvaluatesEveryRow :
    let s : State := { sound with timers := { sound.timers with sweep := due sound.timers.sweep } }
    (s.timers.sweep.running = true ∧ s.timers.sweep.remaining = 0 ∧ s.attemptWaiting = false ∧ s.sizeDiffers = false ∧
      s.composer.rows[0]? = some .empty) ∧ countdownMinutes 30 = 1 ∧ countdownMinutes 1229 = 20 ∧
      countdownMinutes 1230 = 21 ∧ s.cfg.param 9 = 20 ∧
      (s.glyphEntry 1 = none ∧ s.glyphEntry 0 = none ∧ s.textCodes 1 = none) ∧
      (totalWidth [⟨40, []⟩, ⟨36, []⟩] ≤ 76 ∧ 76 < totalWidth [⟨40, []⟩, ⟨37, []⟩] ∧ (s.resolve 1).width ≤ 76) ∧
      (4 + totalWidth [⟨40, []⟩, ⟨36, []⟩] ≤ 80 ∧ 79 < 80) :=
  ⟨⟨rfl, rfl, rfl, by decide, rfl⟩, by decide, by decide, by decide, by decide, by decide, by decide, by decide⟩
/-- The four places of a band: the header with its clock field, a departure row and the notice band; and a state that meets every
premise of the image clauses, with a present glyph. -/
theorem witness_SweepEvaluatesEveryRow_image :
    (lettered.imageSound ∧ lettered.configSound ∧ lettered.glyphsSound ∧ lettered.sizeDiffers = false) ∧
      (Bands.cover tickBands 16 9 14 ∧ ¬Bands.cover tickBands 16 9 13 ∧ Bands.cover tickBands 16 9 16 ∧
        ¬Bands.cover tickBands 16 9 128 ∧ Bands.cover noticeBand 16 9 128 ∧ Bands.cover headerBand 16 9 0) :=
  ⟨lettered_image, by simp [Bands.cover, tickBands, noticeBand, headerBand]⟩
/-- A CLOCK_TIME row of route 7, a blank clock field in conserve, and an EMPTY row (R82 to R85). -/
theorem test_fields_of_the_bands :
    let s : State := { sound with composer := { sound.composer with rows := [.clockTime ⟨7, 220⟩ 792] } }
    s.fieldsAt 1 = [⟨.codes [55], 2, false⟩, ⟨.text 3, 12, false⟩, ⟨.codes [49, 51, 58, 49, 50], 2, true⟩] ∧
      s.fieldsAt 0 = [⟨.text 0, 14, false⟩, ⟨.codes [49, 51, 58, 48, 55], 2, true⟩] ∧
      State.fieldsAt { s with energy := { s.energy with conserve := true } } 0 = [⟨.text 0, 14, false⟩, ⟨.blank, 2, true⟩] ∧
      s.fieldsAt 2 = [⟨.blank, 2, false⟩, ⟨.blank, 12, false⟩, ⟨.blank, 2, true⟩] ∧ s.fieldsAt 8 = [⟨.blank, 16, false⟩] := by
  decide
/-- A board entry from the CURRENT bank in a state. -/
def inState (state : EntryState) (origin : Origin) : Entry :=
  { planned 7 220 36720 with origin := origin, state := state, pred := some ⟨36730, 36400⟩ }

/-- The shortest and the longest payload, in both clock states; a record in range and out of it, admitted or not; a board with room
and a full one; a key on the board in each state, on the gone list, in a bank, and nowhere. -/
theorem witness_PredictCountsEveryRecord :
    ((having 0x0A (List.replicate 12 0)).headIs (asked 0x0A (List.replicate 12 0)) [] ∧
      lengthAllowed 0x0A (List.replicate 12 (0 : Byte)).length = true ∧ lengthAllowed 0x0A 144 = true ∧
      (having 0x0A []).clock.time = none ∧ (at412 0).time ≠ none ∧ (having 0x0A []).attemptWaiting = false) ∧
    (PredictRecord.inRange ⟨1, 1, 0, ⟨999, 65535⟩, 100799, 0⟩ = true ∧
      PredictRecord.inRange ⟨1, 1, 0, ⟨1000, 1⟩, 0, 0⟩ = false ∧ running.cfg.admits 0 = false ∧
      (running.cfg.setWindow 0 ⟨true, 0, 0, some 7⟩).admits 0xFFFF = true ∧ running.cfg.shows 7 = true ∧
      (running.cfg.setParam 4 0x7F).shows 7 = false) ∧
    (sound.board.entries.length < 32 ∧
      List.replicate 32 (planned 1 1 0) = List.replicate 31 (planned 1 1 0) ++ [planned 1 1 0] ∧
      (planned 1 0 0).before (planned 1 1 0) = true ∧ (planned 1 1 0).before (planned 1 1 0) = false) ∧
    (∀ state origin, Board.find ⟨[inState state origin], []⟩ ⟨7, 220⟩ = some (inState state origin)) ∧
    (sound.board.find ⟨31, 9⟩ = none ∧ sound.board.isGone ⟨31, 9⟩ = true ∧ sound.board.find ⟨5, 6⟩ = none ∧
      sound.board.isGone ⟨5, 6⟩ = false ∧ sound.findTrip ⟨5, 6⟩ = none ∧
      State.findTrip { sound with
        flash := { sound.flash with bankB := ⟨.erased, [⟨5, 6, 608, 3, 1⟩]⟩ }
        store := { sound.store with bankB := ⟨.valid, 413, 1, 0, 1, some .next⟩ } } ⟨5, 6⟩ =
        some (.next, ⟨5, 6, 608, 3, 1⟩)) ∧
    (sound.now - sound.cfg.grace = 36390 ∧ sound.now + sound.cfg.horizon = 41820) ∧
    (let c := (running.cfg.setWindow 0 ⟨true, 0x1200, 0xFF00, some 7⟩).setWindow 1 ⟨true, 0x1000, 0xF000, none⟩;
      (c.window 0).hits 0x12FF = true ∧ (c.window 0).hits 0x1300 = false ∧ (c.window 1).hits 0x1300 = true ∧
        (c.window 0).platform = some 7 ∧ (c.window 1).platform = none) :=
  ⟨⟨⟨rfl, rfl⟩, rfl, rfl, rfl, by decide, rfl⟩, by decide, by decide,
    fun state origin => by cases state <;> cases origin <;> decide, by decide, by decide, by decide⟩
/-- W0 assigns platform 7; the stop code that W1 alone hits keeps the platform of the board entry, and 0 of an unknown trip (R50). -/
theorem test_platform_assignment :
    let s : State := { sound with
      cfg := (running.cfg.setWindow 0 ⟨true, 0x1200, 0xFF00, some 7⟩).setWindow 1 ⟨true, 0x1000, 0xF000, none⟩ }
    s.assignPlatform ⟨1, 0, 0x12FF, ⟨7, 220⟩, 0, 0⟩ = 7 ∧ s.assignPlatform ⟨1, 0, 0x1300, ⟨7, 220⟩, 0, 0⟩ = 1 ∧
      s.assignPlatform ⟨1, 0, 0x1300, ⟨5, 6⟩, 0, 0⟩ = 0 := by decide
/-- Eight notices under ids 1 to 8, at priorities 1 and 2. -/
def eight : List Notice := (List.range 8).map fun i => ⟨i + 1, 40, i / 4 + 1, none⟩

/-- Without an end and with one, at the last second, in range and past it, and behind the clock; a known id among eight, a new one
among eight, and a new one among seven. -/
theorem witness_NoticePostFilesTheNotice :
    (having 0x0B [255, 9, 4, 0, 0, 0, 0]).headIs (asked 0x0B [255, 9, 4, 0, 0, 0, 0]) [] ∧
      (1 ≤ (255 : Byte).toNat ∧ 1 ≤ (4 : Byte).toNat ∧ (4 : Byte).toNat ≤ 4) ∧ (having 0x0B []).attemptWaiting = false ∧
      (having 0x0B [255, 9, 4, 1, 1, 0x51, 0x7F]).headIs (asked 0x0B [255, 9, 4, 1, 1, 0x51, 0x7F]) [] ∧
      ((1 : Byte).toNat * 256 + (0x51 : Byte).toNat) * 256 + (0x7F : Byte).toNat = 86399 ∧
      ¬((1 : Byte).toNat * 256 + (0x51 : Byte).toNat) * 256 + (0x80 : Byte).toNat ≤ 86399 ∧
      (at412 86398).time = some ⟨86398, 412, 180⟩ ∧ 86398 < 86399 ∧ ¬86399 < 86399 ∧ (having 0x0B []).clock.time = none ∧
      (8 ≤ eight.length ∧ ¬∃ x ∈ eight, x.id = 255) ∧ (∃ x ∈ eight, x.id = 8) ∧ eight.tail.length < 8 :=
  ⟨⟨rfl, rfl⟩, by decide, rfl, ⟨rfl, rfl⟩, by decide, by decide, rfl, by decide, by decide, rfl, by decide, by decide, by decide⟩
theorem witness_NoticeWithdrawRemovesTheNotice :
    (having 0x0C [8]).headIs (asked 0x0C [8]) [] ∧ (∃ x ∈ eight, x.id = (8 : Byte).toNat) ∧
      (¬∃ x ∈ eight, x.id = (9 : Byte).toNat) ∧ (having 0x0C []).attemptWaiting = false ∧
      [Notice.mk 8 40 1 none].filter (fun x => x.id ≠ (8 : Byte).toNat) = [] :=
  ⟨⟨rfl, rfl⟩, by decide, by decide, rfl, by decide⟩
/-- From the second to the third notice of the top set, and from its last to its first, when due and when not. -/
theorem witness_RotationAdvancesThePosition :
    (due running.timers.rotation).running = true ∧ (due running.timers.rotation).remaining = 0 ∧
      running.timers.rotation.start.remaining ≠ 0 ∧ running.attemptWaiting = false ∧ running.energy.conserve = false ∧
      topSet eight = [⟨1, 40, 1, none⟩] ++ ⟨2, 40, 1, none⟩ :: ⟨3, 40, 1, none⟩ :: [⟨4, 40, 1, none⟩] ∧
      topSet eight = ⟨1, 40, 1, none⟩ :: [⟨2, 40, 1, none⟩, ⟨3, 40, 1, none⟩] ++ [⟨4, 40, 1, none⟩] ∧
      (topSet [Notice.mk 8 40 1 none]).length ≤ 1 :=
  ⟨rfl, rfl, by decide, rfl, rfl, by decide, by decide, by decide⟩
/-- Dates N, N + 1 and N + 2, at 65,535, and with the clock UNSET. -/
theorem witness_UploadBeginOpensTheContext :
    (having 0x06 [1, 156]).headIs (asked 0x06 [1, 156]) [] ∧ (having 0x06 []).store.upload = none ∧
      (having 0x06 []).clock.time = none ∧
      [412, 413, 414].map (State.dateInReach { running with clock := at412 0 }) = [true, true, false] ∧
      [65535, 0].map (State.dateInReach { running with clock := ⟨some ⟨0, 65535, 180⟩, 0⟩ }) = [true, false] ∧
      (writing 0x06 (.bankErase .a 412)).link.write = some (.bankErase .a 412) ∧
      (writing 0x06 (.fillingHeader .b 412)).writing (.fillingHeader .b 412) (asked 0x06 []) [] :=
  ⟨⟨rfl, rfl⟩, rfl, rfl, by decide, by decide, rfl, rfl, rfl⟩

/-- An upload of one trip so far. -/
def oneTrip : Upload := ⟨.a, 412, 1, 1, some 5, 0x1234⟩

/-- A block that passes every test, and one that fails each. -/
theorem witness_TripBlockIsTestedAndWritten :
    let t : Trip := ⟨999, 65535, 1439, 255, 7⟩
    ((having 0x07 (1 :: [t].flatMap Trip.bytes)).headIs (asked 0x07 (1 :: [t].flatMap Trip.bytes)) [] ∧
      (t.route < 65536 ∧ t.trip < 65536 ∧ t.minute < 65536 ∧ t.dest < 256 ∧ t.platform < 256)) ∧
      ((1 : Byte).toNat = oneTrip.expected ∧ ¬(2 : Byte).toNat = oneTrip.expected ∧ [t].all Trip.inRange = true ∧
        (∀ x, oneTrip.lastMinute = some x → ∀ y ∈ [t], x ≤ y.minute) ∧ [t].Pairwise (fun x y => x.minute ≤ y.minute) ∧
        ([t].map Trip.key).Nodup ∧ (∀ x ∈ [t], ∀ y ∈ [(⟨1, 1, 5, 0, 0⟩ : Trip)], x.key ≠ y.key) ∧
        oneTrip.trips + [t].length ≤ 1200 ∧ 1200 < { oneTrip with trips := 1200 }.trips + [t].length) ∧
      ([Trip.mk 1000 1 0 0 0].all Trip.inRange = false ∧
        (¬∀ x, oneTrip.lastMinute = some x → ∀ y ∈ [Trip.mk 1 2 4 0 0], x ≤ y.minute) ∧
        ¬[Trip.mk 1 2 7 0 0, Trip.mk 1 3 6 0 0].Pairwise (fun x y => x.minute ≤ y.minute) ∧
        ¬([Trip.mk 1 2 7 0 0, Trip.mk 1 2 8 0 0].map Trip.key).Nodup) ∧
      (writing 0x07 (.tripBlock [t])).writing (.tripBlock ([] ++ [t])) (asked 0x07 []) [] :=
  ⟨⟨⟨rfl, rfl⟩, by decide⟩,
    ⟨by decide, by decide, by decide, by rintro x ⟨⟩; decide, by decide, by decide, by decide, by decide, by decide⟩,
    ⟨by decide, fun h => absurd (h 5 rfl) (by decide), by decide, by decide⟩, rfl, rfl⟩
/-- No upload, an upload that agrees and one that does not, and the end of a write that gives another bank CURRENT or leaves none. -/
theorem witness_UploadCommitMakesTheBankValid :
    ((having 0x08 [0, 1, 0, 0]).headIs (asked 0x08 [0, 1, 0, 0]) [] ∧ (asked 0x08 [0, 1, 0, 0]).payload.length = 4 ∧
      (having 0x08 [0, 1, 0, 0]).store.upload = none) ∧
    (having 0x08 [0, 1, 0x12, 0x34]).headIs (asked 0x08 [0, 1, 0x12, 0x34]) [] ∧
      (0 * 256 + (1 : Byte).toNat = oneTrip.trips ∧ (0x12 : Byte).toNat * 256 + (0x34 : Byte).toNat = oneTrip.check.toNat) ∧
      ¬(2 : Byte).toNat = oneTrip.trips ∧
      (writing 0x08 (.commitHeader .a 412 1 0x1234 1)).writing (.commitHeader .a 412 1 0x1234 1) (asked 0x08 []) [] ∧
      (writing 0x08 (.commitHeader .a 412 1 0x1234 1)).attemptWaiting = false ∧
      (let s : State := { writing 0x08 (.commitHeader .a 412 1 0x1234 1) with clock := at412 100 };
        (s.store.select 412).holder .current = s.store.holder .current ∧
          (after (.commitHeaderWriteEnd true) s).store.holder .current ≠ s.store.holder .current) :=
  ⟨⟨⟨rfl, rfl⟩, rfl, rfl⟩, ⟨rfl, rfl⟩, by decide, by decide, ⟨rfl, rfl⟩, rfl, by decide⟩
theorem witness_UploadAbortFreesTheTarget :
    (having 0x09 []).headIs (asked 0x09 []) [] ∧ (having 0x09 []).store.upload = none ∧
      { running.store with upload := some oneTrip }.upload = some oneTrip ∧
      (StoredBank.mk (.good (.filling 412 0 0 0)) []).header = .good (.filling 412 0 0 0) := ⟨⟨rfl, rfl⟩, rfl, rfl, rfl⟩
theorem witness_IdleTimeoutAbortsTheUpload :
    let s : State := { running with
      store := { running.store with upload := some oneTrip }
      timers := { running.timers with upload := due running.timers.upload } }
    s.timers.upload.running = true ∧ s.timers.upload.remaining = 0 ∧ s.store.upload = some oneTrip ∧
      State.link { s with link := { s.link with write := some (.text 0 []) } } = { s.link with write := some (.text 0 []) } ∧
      (¬∃ ts, FlashWrite.text 0 [] = .tripBlock ts) ∧ (∃ ts, FlashWrite.tripBlock [] = .tripBlock ts) ∧
      running.timers.upload.start.remaining ≠ 0 :=
  ⟨rfl, rfl, rfl, rfl, (by rintro ⟨_, h⟩; cases h), ⟨_, rfl⟩, by decide⟩
/-- A due idle timeout during a TEXT_PUT write aborts the upload, and during a block's write it does not (R40). -/
theorem test_idle_timeout_during_a_write :
    let s (w : FlashWrite) : State := { writing 0x0D w with
      store := { running.store with upload := some oneTrip }
      timers := { running.timers with upload := due running.timers.upload } }
    (after .uploadIdleTimeout (s (.text 0 []))).store.upload = none ∧
      (after .uploadIdleTimeout (s (.tripBlock []))).store.upload = some oneTrip := by decide
theorem witness_FailedUploadWriteFreesTheTarget :
    (writing 0x06 (.bankErase .a 412)).writing (.bankErase .a 412) (asked 0x06 []) [] ∧
      (writing 0x06 (.bankErase .a 412)).store.upload = none ∧
      State.writing { writing 0x07 (.tripBlock []) with store := { running.store with upload := some oneTrip } }
        (.tripBlock []) (asked 0x07 []) [] ∧ oneTrip.target = .a := ⟨⟨rfl, rfl⟩, rfl, ⟨rfl, rfl⟩, rfl⟩
/-- Identifiers 0, 1, 43 and 44, a value at the end of its range and one past it. -/
theorem witness_ConfigSetChangesOneParameter :
    (having 0x03 [43, 0, 0, 0, 255]).headIs (asked 0x03 [43, 0, 0, 0, 255]) [] ∧ paramInRange 43 255 = true ∧
      paramInRange 43 256 = false ∧ paramInRange 1 6 = true ∧ (43 : Byte).toNat ≤ 43 ∧ 43 < (44 : Byte).toNat ∧
      (writing 0x03 (.config 43 255)).writing (.config 43 255) (asked 0x03 []) [] ∧
      (writing 0x03 (.config 43 255)).attemptWaiting = false ∧
      (∀ id, (writing 0x03 (.config id 1)).writing (.config id 1) (asked 0x03 []) []) ∧
      (writing 0x03 (.config 17 1)).sizeDiffers = false ∧ 20 ≤ running.cfg.param 17 ∧ ¬21 ≤ running.cfg.param 17 ∧
      (sound.clock.time = some ⟨36420, 412, 180⟩ ∧ sound.board.gone.length ≤ 32) :=
  ⟨⟨rfl, rfl⟩, by decide, by decide, by decide, by decide, by decide, ⟨rfl, rfl⟩, rfl, fun _ => ⟨rfl, rfl⟩, by decide, by decide,
    by decide, rfl, by decide⟩
/-- A tile at 20 and one at 19 partial drives, neither in a job, at a new limit of 20 and of 21 over an old one of 20 (R126). -/
theorem test_new_ghost_limit :
    let tm : TileMap := { running.tiles with tiles := [⟨none, none, 20, false, none⟩, ⟨none, none, 19, false, none⟩] }
    [20, 21].map (fun g => (tm.newLimit .notice 20 g).1.tiles.map (·.clearDue)) = [[true, false], [false, false]] := by decide
/-- One of two tiles marked by a new limit is over the threshold, and the full clean is queued (R126, R127). -/
theorem test_new_ghost_limit_over_the_threshold :
    let tm : TileMap := { running.tiles with
      wt := 2, ht := 1, tiles := [⟨none, none, 20, false, none⟩, ⟨none, none, 19, false, none⟩] }
    (tm.newLimit .notice 20 20).1.hasClean = true ∧ 2 * 1 < 4 * (tm.newLimit .notice 20 20).1.clearDueCount := by decide
theorem witness_ConfigGetReportsTheValue :
    (having 0x04 [57]).headIs (asked 0x04 [57]) [] ∧ (43 : Byte).toNat ≤ 43 ∧ 43 < (44 : Byte).toNat ∧
      50 ≤ (50 : Byte).toNat ∧ (57 : Byte).toNat ≤ 57 ∧ 57 < (58 : Byte).toNat :=
  ⟨⟨rfl, rfl⟩, by decide, by decide, by decide, by decide, by decide⟩
/-- KEEP in W5, any platform byte in X0, platform 8 refused in W5, and a window 8 that does not exist. -/
theorem witness_WindowSetChangesOneWindow :
    (having 0x05 [5, 1, 0, 0, 0, 0, 255]).headIs (asked 0x05 [5, 1, 0, 0, 0, 0, 255]) [] ∧
      windowInRange [5, 1, 0, 0, 0, 0, 255] = true ∧ windowInRange [6, 1, 0, 0, 0, 0, 9] = true ∧
      windowInRange [5, 1, 0, 0, 0, 0, 8] = false ∧ 7 < (8 : Byte).toNat ∧
      (writing 0x05 (.window 7 Config.defaultWindow)).writing (.window 7 Config.defaultWindow) (asked 0x05 []) [] :=
  ⟨⟨rfl, rfl⟩, by decide, by decide, by decide, by decide, ⟨rfl, rfl⟩⟩
theorem witness_TextPutReplacesOneEntry :
    (having 0x0D [255, 1, 255]).headIs (asked 0x0D [255, 1, 255]) [] ∧ lengthAllowed 0x0D 3 = true ∧
      textInRange (textOf [255, 1, 255]) = true ∧ textInRange (textOf [255, 2, 0]) = false ∧
      (writing 0x0D (.text 255 [511])).writing (.text 255 [511]) (asked 0x0D []) [] ∧
      (writing 0x0D (.text 255 [511])).attemptWaiting = false ∧
      (let s := writing 0x0D (.text 255 [511]); s.imageSound ∧ s.configSound ∧ s.glyphsSound ∧ s.sizeDiffers = false) :=
  ⟨⟨rfl, rfl⟩, by decide, by decide, by decide, ⟨rfl, rfl⟩, rfl, imageSound_of_start rfl rfl rfl rfl,
    ⟨by decide, fun w h => by cases h; trivial⟩, ⟨fun _ _ h => (by cases h), fun _ _ h => (by cases h)⟩, by decide⟩
/-- Width 8 in one byte a row, and width 9, which needs two. -/
theorem witness_GlyphPutReplacesOneEntry :
    (having 0x0E ([1, 255, 8] ++ List.replicate 28 0)).headIs (asked 0x0E ([1, 255, 8] ++ List.replicate 28 0)) [] ∧
      lengthAllowed 0x0E 31 = true ∧ glyphInRange ([1, 255, 8] ++ List.replicate 28 0) = true ∧
      glyphInRange ([1, 255, 9] ++ List.replicate 28 0) = false ∧
      (writing 0x0E (.glyph 511 ⟨8, []⟩)).writing (.glyph 511 ⟨8, []⟩) (asked 0x0E []) [] ∧
      (writing 0x0E (.glyph 511 ⟨8, []⟩)).attemptWaiting = false ∧
      (let s := writing 0x0E (.glyph 511 ⟨8, []⟩); s.imageSound ∧ s.configSound ∧ s.glyphsSound ∧ s.sizeDiffers = false) :=
  ⟨⟨rfl, rfl⟩, by decide, by decide, by decide, ⟨rfl, rfl⟩, rfl, imageSound_of_start rfl rfl rfl rfl,
    ⟨by decide, fun w h => by cases h; trivial⟩, ⟨fun _ _ h => (by cases h), fun _ _ h => (by cases h; decide)⟩, by decide⟩
set_option maxRecDepth 20000 in
/-- A part without power and one held in reset, with the line high; a record never written, one in range and one out of it; a bank
whose check passes and two whose check fails; and a table in canonical form. -/
theorem witness_ResetsRunStartUp :
    (State.reset.lineLow = false ∧ State.phase { State.reset with phase := .held } = .held ∧ State.reset.link.write = none) ∧
      State.reset.flash.config = .erased ∧ Config.defaults.inRange = true ∧ (Config.defaults.setParam 1 5).inRange = false ∧
      (crc16 (([] : List Trip).flatMap Trip.bytes) = 0xFFFF ∧ 1200 ≤ 1200 ∧ ¬1201 ≤ 1200 ∧
        crc16 ([(⟨1, 1, 0, 0, 0⟩ : Trip)].flatMap Trip.bytes) ≠ 0xFFFF) ∧
      Flash.sound { State.reset.flash with texts := [(5, .bad), (6, .good [65])] } :=
  ⟨⟨rfl, rfl, rfl⟩, rfl, by decide, by decide, by decide, by decide, by decide⟩
/-- Each command in a phase it acts in, each kind of write, and the line without power. -/
theorem witness_PowerLossAndLineResetLoseTheState :
    (running.phase ≠ .off ∧ State.lineLow { running with lineLow := true } = true ∧ State.reset.phase = .off ∧
      running.phase ≠ .held) ∧
    running.link.write = none ∧ (∀ w, (writing 0x03 w).link.write = some w) ∧
    State.store { writing 0x07 (.tripBlock []) with store := { running.store with upload := some oneTrip } } =
      { running.store with upload := some oneTrip } := ⟨by decide, rfl, fun _ => rfl, rfl⟩
/-- Power that comes while the RESET line is low leaves the part in reset; its release starts the part up with cause LINE (R193). -/
theorem test_line_low_at_power_on :
    let s := after (.powerOnReset false false true 4000 20) (after .lineResetAssert State.reset)
    s.phase = .held ∧ s.lineLow = true ∧ s.powered = false ∧
      (after (.lineResetRelease false false true 4000 20) { State.reset with lineLow := true }).lineLow = false := by decide
theorem witness_RequestResetClearsAndKeeps :
    (∀ b, let s : State := { inHand (clockJob .driving) b true with link := { running.link with resetAfter := some 0 } }
      s.link.resetAfter = some 0 ∧ s.drive.exchange = none ∧ s.drive.held = [] ∧ s.attemptWaiting = false ∧
        s.sizeDiffers = false ∧ s.store.upload = none ∧ s.drive.booster = b ∧
        s.tiles.jobs.find? (fun x => x.state == .driving) = some (clockJob .driving)) ∧
    (let s : State := { exchanging with
        link := { running.link with resetAfter := some 0 }, store := { running.store with upload := some oneTrip } };
      s.link.resetAfter ≠ none ∧ s.drive.exchange ≠ none ∧ .requestReset ∉ s.drive.held ∧ s.store.upload = some oneTrip ∧
        running.link.resetAfter = none ∧ TileMap.hasClean { running.tiles with jobs := [cleanJob .granted] } = true) ∧
    (let s : State := { sound with
        flash := { sound.flash with bankB := ⟨.erased, [⟨5, 6, 608, 3, 1⟩]⟩ }, resetRoles := ⟨some .b, none⟩ };
      s.clock.time = some ⟨36420, 412, 180⟩ ∧ s.resetRoles.current = some .b ∧ (36420 : Int) - s.cfg.param 7 ≤ 608 * 60 ∧
        608 * 60 ≤ 36420 + s.cfg.param 6 * 60 ∧ (s.cfg.param 4).testBit 1 = true) :=
  ⟨fun b => ⟨rfl, rfl, rfl, rfl, by cases b <;> decide, rfl, rfl, rfl⟩, by decide, by decide⟩
/-- The roles are kept when RESET is taken, and the reset refills from the bank that was CURRENT then, though a rollover has freed it
(R43). -/
theorem test_reset_refills_from_the_roles_of_the_taking :
    let taken := after .reset { having 0x13 [] with
      store := { running.store with bankB := ⟨.valid, 411, 1, 0, 1, some .current⟩ } }
    let s : State := { taken with
      clock := at412 36420
      flash := { taken.flash with bankB := ⟨.erased, [⟨5, 6, 608, 3, 1⟩]⟩ }
      store := { taken.store with bankB := .freeRecord } }
    taken.resetRoles = ⟨some .b, none⟩ ∧
      (s.resetBlocks.rebuildFrom s.resetRoles).board.entries = [⟨⟨5, 6⟩, .current, 3, 1, some 36480, none, .planned⟩] ∧
      s.resetBlocks.resetRoles = ⟨none, none⟩ := by decide
end Sys2Proof.Tests
end

section
/-! PROOFS. Stop windows (03 §3.5): one window replaced in the configuration record, the payload and the layout of WINDOW_SET,
what a failed flash write's answer leaves unchanged, and with them the two commands of WINDOW_SET. -/

namespace Sys2Proof.StopWindows

open Sys2Proof.Machine

/-! ### The configuration record with one window replaced (R55, R56) -/

theorem window_setWindow_same (c : ConfigRecord) {i : Nat} (hi : i ≤ 7) (w : Window) : (c.setWindow i w).window i = w := by
  have hlt : i < 8 := by omega
  simp [ConfigRecord.window, ConfigRecord.setWindow, Vector.getD, hlt]

theorem window_setWindow_other (c : ConfigRecord) {i k : Nat} (hk : k ≠ i) (w : Window) :
    (c.setWindow i w).window k = c.window k := by
  simp [ConfigRecord.window, ConfigRecord.setWindow, Vector.getD, hk.symm]

/-! ### The payload and the layout of a window's settings (R48, R55) -/

theorem windowInRange_iff (i e b1 b0 m1 m0 p : Byte) :
    windowInRange [i, e, b1, b0, m1, m0, p] = true ↔
      i.toNat ≤ 7 ∧ e.toNat ≤ 1 ∧ (i.toNat ≤ 5 → p.toNat ≤ 7 ∨ p.toNat = 255) := by
  have himp : (5 < i.toNat ∨ p.toNat ≤ 7) ∨ p.toNat = 255 ↔ (i.toNat ≤ 5 → p.toNat ≤ 7 ∨ p.toNat = 255) := by omega
  simp only [windowInRange, u8, List.getD_cons_zero, List.getD_cons_succ, Bool.and_eq_true, Bool.or_eq_true,
    decide_eq_true_eq, beq_iff_eq, himp, and_assoc]

theorem windowOf_payload (i e b1 b0 m1 m0 p : Byte) :
    windowOf [i, e, b1, b0, m1, m0, p] =
      ⟨decide (e.toNat = 1), BitVec.ofNat 16 (b1.toNat * 256 + b0.toNat), BitVec.ofNat 16 (m1.toNat * 256 + m0.toNat),
        if i.toNat ≤ 5 ∧ p.toNat ≤ 7 then some p.toNat else none⟩ := rfl

theorem flag8_eq (b : Bool) : flag8 b = [if b then 1 else 0] := by
  cases b <;> rfl

/-- KEEP, and whatever an exclusion window holds, is reported as 255. -/
theorem window_bytes_eq (i : Nat) (w : Window) :
    w.bytes i = b8 i ++ [if w.enabled then 1 else 0] ++ b16 w.base.toNat ++ b16 w.mask.toNat ++
      [if 5 < i then 255 else match w.platform with | none => 255 | some p => BitVec.ofNat 8 p] := by
  unfold Window.bytes
  rw [flag8_eq]
  congr 1
  by_cases hi : i ≤ 5
  · rw [if_pos hi, if_neg (Nat.not_lt.mpr hi)]
    cases w.platform <;> rfl
  · rw [if_neg hi, if_pos (Nat.lt_of_not_le hi)]
    rfl

/-! ### WINDOW_SET (R55) -/

section WindowSet

variable {s : State} {r : Request} {rest : List Request}

/-- A taken WINDOW_SET of the only length its kind allows starts the write or is refused RANGE (R55, R186). -/
theorem exec_windowSet_of_headIs (h : s.headIs r rest) (hk : r.kind = 0x05) (hl : r.payload.length = 7) :
    exec .windowSet s = .next
      (if windowInRange r.payload then s.startWrite (.window (u8 r.payload 0) (windowOf r.payload))
      else if u8 r.payload 0 ≤ 7 then s.reply .range (s.cfg.windowData (u8 r.payload 0))
      else s.reply .range []) := by
  have hkind : r.kind.toNat = 0x05 := by rw [hk]; rfl
  have hlen : lengthAllowed 0x05 r.payload.length = true := by rw [hl]; rfl
  exact congrArg Host.Outcome.next (take_work h hkind hlen _)

theorem exec_windowSet_good (h : s.headIs r rest) (hk : r.kind = 0x05) (hl : r.payload.length = 7)
    (hgood : windowInRange r.payload = true) :
    exec .windowSet s = .next (s.startWrite (.window (u8 r.payload 0) (windowOf r.payload))) := by
  rw [exec_windowSet_of_headIs h hk hl, if_pos hgood]

theorem exec_windowSet_known (h : s.headIs r rest) (hk : r.kind = 0x05) (hl : r.payload.length = 7)
    (hbad : windowInRange r.payload ≠ true) (hi : u8 r.payload 0 ≤ 7) :
    exec .windowSet s = .next { s with
      link := s.link.answered r rest 4 s.faults.newsFlag (s.cfg.windowData (u8 r.payload 0)) } := by
  rw [exec_windowSet_of_headIs h hk hl, if_neg hbad, if_pos hi, reply_answered (headIs_requests h)]
  rfl

theorem exec_windowSet_unknown (h : s.headIs r rest) (hk : r.kind = 0x05) (hl : r.payload.length = 7)
    (hbad : windowInRange r.payload ≠ true) (hi : 7 < u8 r.payload 0) :
    exec .windowSet s = .next { s with link := s.link.answered r rest 4 s.faults.newsFlag [] } := by
  rw [exec_windowSet_of_headIs h hk hl, if_neg hbad, if_neg (Nat.not_le.mpr hi), reply_answered (headIs_requests h)]
  rfl

end WindowSet

/-! ### A flash write's end (R56, R58) -/

/-- STORE_FAIL and STORE/106, in either order: the reply's news flag alone depends on which comes first (R187). -/
theorem storeFail_answered {s : State} {r : Request} {rest : List Request} (h : s.link.requests = r :: rest)
    (data : List Byte) :
    ∃ l news, s.storeFail data = { s with
      schedule := l
      faults := s.faults.raise .store106 s.clock.stamp
      link := s.link.answered r rest 15 news data } := by
  obtain ⟨l, hreplyLast | hraiseLast⟩ :=
    eitherOrder_cases s (fun t => t.reply .storeFail data) (fun t => t.raise .store106)
  · refine ⟨l, (s.faults.raise .store106 s.clock.stamp).newsFlag, hreplyLast.trans ?_⟩
    exact reply_answered (s := State.raise { s with schedule := l } .store106) h .storeFail data
  · refine ⟨l, s.faults.newsFlag, hraiseLast.trans ?_⟩
    exact congrArg (State.raise · .store106) (reply_answered (s := { s with schedule := l }) h .storeFail data)

/-- A failed configuration write touches the record in flash, the fault records and the link, and beside them the
model's own count of free values and its schedule alone (R56, R189). -/
theorem failConfig_answered {s : State} {r : Request} {rest : List Request} (h : s.link.requests = r :: rest)
    (data : List Byte) :
    ∃ l news, s.failConfig data = { s with
      freeCount := s.freeCount + 1
      flash := { s.flash with config := leftConfig s.cfg.windows s.freeCount }
      schedule := l
      faults := s.faults.raise .store106 s.clock.stamp
      link := s.link.answered r rest 15 news data } :=
  storeFail_answered
    (s := s.fresh.2.setFlash { s.flash with config := leftConfig s.cfg.windows s.fresh.1 }) h data

theorem leftConfig_ne_erased (ws : Vector Window 8) (n : Nat) : leftConfig ws n ≠ .erased := by
  obtain hbad | ⟨params, hgood⟩ := leftConfig_cases ws n
  · rw [hbad]; nofun
  · rw [hgood]; nofun

theorem leftConfig_good_windows {ws : Vector Window 8} {n : Nat} {x : ConfigRecord} (h : leftConfig ws n = .good x) :
    x.windows = ws := by
  obtain hbad | ⟨params, hgood⟩ := leftConfig_cases ws n
  · rw [hbad] at h; cases h
  · rw [hgood] at h; cases h; rfl

section WindowWriteEnd

variable {s : State} {i : Nat} {w : Window} {r : Request} {rest : List Request}

theorem exec_windowWriteEnd_verified (h : s.writing (.window i w) r rest) (hi : i ≤ 7) :
    exec (.windowWriteEnd true) s = .next { s with
      cfg := s.cfg.setWindow i w
      flash := { s.flash with config := .good (s.cfg.setWindow i w) }
      link := s.link.answered r rest 0 s.faults.newsFlag (w.bytes i) } := by
  obtain ⟨hwrite, hrequests⟩ := h
  have hreply := reply_answered (s := s.adoptConfig (s.cfg.setWindow i w)) hrequests .ok
    ((s.cfg.setWindow i w).windowData i)
  have hdata : (s.cfg.setWindow i w).windowData i = w.bytes i :=
    congrArg (Window.bytes i) (window_setWindow_same s.cfg hi w)
  rw [hdata] at hreply
  simp only [exec, execWindowWriteEnd, hwrite, if_true]
  exact congrArg Host.Outcome.next ((congrArg _ hdata).trans hreply)

theorem exec_windowWriteEnd_failed (h : s.writing (.window i w) r rest) :
    exec (.windowWriteEnd false) s = .next (s.failConfig []) := by
  simp [exec, execWindowWriteEnd, h.1]

end WindowWriteEnd

/-- Settles O55, from what WINDOW_SET does with each payload, the two ends of its write, and the layout of R55. -/
theorem windowSetChangesOneWindow : Obligations.WindowSetChangesOneWindow := by
  refine ⟨?taken, ?written, window_bytes_eq⟩
  case taken =>
    intro s r rest i e b1 b0 m1 m0 p h hk hp
    have hl : r.payload.length = 7 := by rw [hp]; rfl
    have hindex : u8 r.payload 0 = i.toNat := by rw [hp]; rfl
    have hrange := windowInRange_iff i e b1 b0 m1 m0 p
    rw [← hp] at hrange
    refine ⟨fun hgood => ?_, fun hbad hi => ?_, fun hi => ?_⟩
    · rw [exec_windowSet_good h hk hl (hrange.mpr hgood), hindex, hp, windowOf_payload]
      rfl
    · rw [exec_windowSet_known h hk hl (mt hrange.mp hbad) (hindex ▸ hi), hindex]
      rfl
    · have hbad : windowInRange r.payload ≠ true := fun ht => absurd (hrange.mp ht).1 (Nat.not_le.mpr hi)
      exact exec_windowSet_unknown h hk hl hbad (hindex ▸ hi)
  case written =>
    intro s i w r rest h hi
    constructor
    · exact ⟨s.cfg.setWindow i w, exec_windowWriteEnd_verified h hi, window_setWindow_same s.cfg hi w,
        fun k hk => window_setWindow_other s.cfg hk w, rfl⟩
    · obtain ⟨l, news, hfail⟩ := failConfig_answered h.2 []
      refine ⟨s.failConfig [], news, exec_windowWriteEnd_failed h, ?_⟩
      rw [hfail]
      exact ⟨rfl, rfl, rfl, rfl, rfl, rfl, rfl, leftConfig_ne_erased _ _, fun x hx => leftConfig_good_windows hx⟩

end Sys2Proof.StopWindows
end

section
/-! PROOFS. Text and glyph tables (06 §6.2), ghost counts (08 R125) and the fault count (11 R174): for each operation of the
part, one lemma that the tables stay canonical, present glyphs 1 to 40 px wide and the counts in range; with them, the same for
every command. -/

namespace Sys2Proof.TablesAndCounts

open Sys2Proof.Machine

/-! ### Ghost counts of a list of tiles (R125) -/

/-- Every ghost count is 0 to 63 (R125). -/
def GhostsBounded (l : List Tile) : Prop := ∀ t ∈ l, t.ghost ≤ 63

/-- The ghost counts alone decide. -/
theorem GhostsBounded.of_map {l m : List Tile} (h : m.map Tile.ghost = l.map Tile.ghost) (k : GhostsBounded l) :
    GhostsBounded m := by
  have bound : ∀ n ∈ l.map Tile.ghost, n ≤ 63 := List.forall_mem_map.mpr k
  rw [← h] at bound
  exact List.forall_mem_map.mp bound

theorem ghosts_of_sameGlass {a b : TileMap} (h : SameGlass a b) : GhostsBounded a.tiles → GhostsBounded b.tiles := by
  have same : b.tiles.map Tile.ghost = a.tiles.map Tile.ghost := by
    simpa [Function.comp_def, Tile.glass] using congrArg (List.map fun x => x.2.1) h.glass
  exact .of_map same

theorem map_ghosts (f : Tile → Tile) (hf : ∀ t, (f t).ghost = t.ghost) (l : List Tile) :
    GhostsBounded l → GhostsBounded (l.map f) := .of_map (by simp [Function.comp_def, hf])

/-- Tile by tile, a change that leaves the ghost count alone. -/
theorem map_ghost_of_tile {l m : List Tile} (f : Nat → Tile → Tile) (h : ∀ i, m[i]? = l[i]?.map (f i))
    (hf : ∀ i t, (f i t).ghost = t.ghost) : m.map Tile.ghost = l.map Tile.ghost := by
  refine List.ext_getElem? fun i => ?_
  simp [h, Function.comp_def, hf]

theorem replicate_unknown_ghosts (n : Nat) (job : Option Nat) : GhostsBounded (List.replicate n (.unknown job)) := by
  intro t ht
  rw [List.eq_of_mem_replicate ht]
  exact Nat.zero_le 63

/-- A completion counts up to 63 and no further (R125). -/
theorem driven_ghost_le (t : Tile) (mode : DriveMode) (limit : Nat) : (t.driven mode limit).ghost ≤ 63 := by
  cases mode with
  | partialMode => exact Nat.min_le_right _ _
  | fullMode => exact Nat.zero_le _

theorem completeTiles_ghosts (j : Job) (wt limit : Nat) (ref : Option Nat) (l : List Tile) (i : Nat)
    (snap : List (Option Signature)) (h : GhostsBounded l) : GhostsBounded (completeTiles j wt limit ref i snap l) := by
  induction l generalizing i snap with
  | nil => exact h
  | cons t l ih =>
    obtain ⟨ht, hl⟩ := List.forall_mem_cons.mp h
    unfold completeTiles
    split
    · exact List.forall_mem_cons.mpr ⟨driven_ghost_le _ _ _, ih _ _ hl⟩
    · exact List.forall_mem_cons.mpr ⟨ht, ih _ _ hl⟩

/-- An abort makes tiles UNKNOWN and leaves their ghost counts (R132). -/
theorem abortTiles_ghosts (j : Job) (wt : Nat) (ref : Option Nat) (l : List Tile) :
    GhostsBounded l → GhostsBounded (abortTiles j wt ref l) := by
  refine .of_map (map_ghost_of_tile _ (abortTiles_tile j wt ref l) fun i t => ?_)
  split <;> rfl

theorem writeTiles_ghost (w : Written) (i tiles : Nat) (image : List Nat) (n : Nat) :
    (w.writeTiles i tiles image n).tiles.map Tile.ghost = w.tiles.map Tile.ghost := by
  refine map_ghost_of_tile _ (writeTiles_tile w i tiles image n) fun k t => ?_
  split <;> rfl

/-- The Composer writes wanted signatures alone (R91). -/
theorem writeImages_ghosts (wt : Nat) (parts : List (BandPart × List Nat × Nat)) (l : List Tile)
    (pixels : List (Option TilePixels)) (h : GhostsBounded l) : GhostsBounded (writeImages wt l pixels parts).1 := by
  induction parts generalizing l pixels with
  | nil => exact h
  | cons q parts ih => exact ih _ _ (h.of_map (writeTiles_ghost _ _ _ _ _))

/-! ### Ghost counts under the Tile Map's operations -/

theorem completeJob_ghosts (tm : TileMap) (band : JobClass) (n limit : Nat) (d : Bool) (h : GhostsBounded tm.tiles) :
    GhostsBounded (tm.completeJob band n limit d).tiles := by
  unfold TileMap.completeJob
  split
  · exact h
  · exact ghosts_of_sameGlass (afterJob_sameGlass _ _ _ _) (completeTiles_ghosts _ _ _ _ _ _ _ h)

theorem abortJob_ghosts (tm : TileMap) (band : JobClass) (n : Nat) (d : Bool) (h : GhostsBounded tm.tiles) :
    GhostsBounded (tm.abortJob band n d).tiles := by
  unfold TileMap.abortJob
  split
  · exact h
  · exact ghosts_of_sameGlass (afterJob_sameGlass _ _ _ _) (abortTiles_ghosts _ _ _ _ h)

theorem returnJob_ghosts (tm : TileMap) (band : JobClass) (n : Nat) (h : GhostsBounded tm.tiles) :
    GhostsBounded (tm.returnJob band n).tiles := by
  unfold TileMap.returnJob
  split
  · exact h
  · split
    · refine map_ghosts _ (fun t => ?_) _ h
      split <;> rfl
    · exact ghosts_of_sameGlass (formRow_sameGlass _ _ _) h

/-- A new ghost limit marks tiles clear-due and changes no count (R126). -/
theorem newLimit_ghosts (tm : TileMap) (band : JobClass) (old new : Nat) (h : GhostsBounded tm.tiles) :
    GhostsBounded (tm.newLimit band old new).1.tiles := by
  unfold TileMap.newLimit
  split
  · exact h
  · refine ghosts_of_sameGlass ((testThreshold_sameGlass _).trans (formRows_sameGlass _ _ _)) (map_ghosts _ (fun t => ?_) _ h)
    split <;> rfl

theorem requestReset_ghosts (tm : TileMap) (band : JobClass) (h : GhostsBounded tm.tiles) :
    GhostsBounded (tm.requestReset band).1.tiles := by
  have cleaned (a : TileMap) (h : GhostsBounded a.tiles) :
      GhostsBounded (if tm.hasClean then a.queueClean else (a, false)).1.tiles := by
    split
    · exact ghosts_of_sameGlass (queueClean_sameGlass a) h
    · exact h
  unfold TileMap.requestReset
  refine ghosts_of_sameGlass ((testThreshold_sameGlass _).trans (formRows_sameGlass _ _ _))
    (cleaned _ (map_ghosts (fun t => { t with job := none }) (fun _ => rfl) _ ?_))
  split
  · exact h
  · exact abortTiles_ghosts _ _ _ _ h

/-! ### The fault count (R174) -/

/-- A raise counts up to 65,535 and no further (R174). -/
theorem raise_count_le (f : FaultUnit) (c : FaultCode) (stamp : Option Stamp) : (f.raise c stamp).count ≤ 65535 :=
  Nat.min_le_right _ _

theorem count_of_contentWork {s t : State} (h : ContentWork s t) : s.faults.count ≤ 65535 → t.faults.count ≤ 65535 := by
  obtain ⟨-, codes, -, e⟩ := h
  intro k
  rw [e]
  exact List.foldlRecOn (motive := fun f : FaultUnit => f.count ≤ 65535) codes _ k fun _ _ c _ => raise_count_le _ c _

/-! ### What a piece of work keeps -/

/-- From `s` to `t` the tables stay canonical, present glyphs and one being written stay 1 to 40 px wide, and ghost counts and the
fault count stay in range. -/
structure Kept (s t : State) : Prop where
  flash : s.flash.sound → t.flash.sound
  glyphs : s.flash.sound → s.glyphsSound → t.glyphsSound
  counts : s.countsSound → t.countsSound

theorem Kept.refl (s : State) : Kept s s := ⟨id, fun _ => id, id⟩

theorem Kept.trans {s t u : State} (h : Kept s t) (k : Kept t u) : Kept s u :=
  ⟨k.flash ∘ h.flash, fun f => k.glyphs (h.flash f) ∘ h.glyphs f, k.counts ∘ h.counts⟩

/-- What the tables and the present glyphs are read from. -/
def tablesOf (s : State) : List (Nat × Item (List Nat)) × List (Nat × Item Glyph) × List Nat :=
  (s.flash.texts, s.flash.glyphs, s.presence.glyphs)

/-- Everything that the tables' form, the glyphs' widths and the counts are read from. -/
def watched (s : State) :
    (List (Nat × Item (List Nat)) × List (Nat × Item Glyph) × List Nat) × Option FlashWrite × List Tile × Nat :=
  (tablesOf s, s.link.write, s.tiles.tiles, s.faults.count)

/-- Work that touches neither table nor the glyphs' presence map, starts no glyph write, and keeps the counts in range. -/
theorem Kept.of_frame {s t : State} (tables : tablesOf t = tablesOf s)
    (write : ∀ code g, t.link.write = some (.glyph code g) → s.link.write = some (.glyph code g))
    (ghosts : GhostsBounded s.tiles.tiles → GhostsBounded t.tiles.tiles)
    (count : s.faults.count ≤ 65535 → t.faults.count ≤ 65535) : Kept s t := by
  simp only [tablesOf, Prod.mk.injEq] at tables
  obtain ⟨texts, items, presence⟩ := tables
  refine ⟨?_, ?_, And.imp ghosts count⟩
  · rintro ⟨ht, hg⟩
    exact ⟨texts ▸ ht, items ▸ hg⟩
  · rintro - ⟨present, writing⟩
    have entry : t.glyphEntry = s.glyphEntry := by funext code; simp only [State.glyphEntry, items, presence]
    exact ⟨entry ▸ present, fun code g h => writing code g (write code g h)⟩

/-- Work on other fields alone. -/
theorem Kept.of_same {s t : State} (h : watched t = watched s) : Kept s t := by
  simp only [watched, Prod.mk.injEq] at h
  obtain ⟨tables, write, tiles, count⟩ := h
  exact .of_frame tables (by rw [write]; exact fun _ _ => id) (by rw [tiles]; exact id) (by rw [count]; exact id)

/-- The same work begun after, or followed by, a change of other fields alone. -/
theorem Kept.from {s u t : State} (h : Kept u t) (e : watched u = watched s) : Kept s t := (Kept.of_same e).trans h

theorem Kept.to {s u t : State} (h : Kept s u) (e : watched t = watched u) : Kept s t := h.trans (.of_same e)

theorem Kept.of_panelWork {s t : State} (h : PanelWork s t) (ghosts : GhostsBounded s.tiles.tiles → GhostsBounded t.tiles.tiles)
    (count : s.faults.count ≤ 65535 → t.faults.count ≤ 65535) : Kept s t :=
  .of_frame (by simp only [tablesOf, h.flash, h.presence]) (by rw [h.link]; exact fun _ _ => id) ghosts count

theorem Kept.of_grantWork {s t : State} (h : GrantWork s t) : Kept s t :=
  .of_panelWork h.toPanelWork (by rw [h.tiles]; exact id) (by rw [h.faults]; exact id)

theorem Kept.of_boardWork {s t : State} (h : BoardWork s t) (count : s.faults.count ≤ 65535 → t.faults.count ≤ 65535) :
    Kept s t := by
  rw [h.others]
  exact .of_frame rfl (fun _ _ => id) id count

theorem Kept.ite {s t u : State} {c : Prop} [Decidable c] (h : c → Kept s t) (k : ¬c → Kept s u) :
    Kept s (if c then t else u) := by
  split
  · exact h ‹_›
  · exact k ‹_›

/-! ### Replies, faults and the model's own choices -/

theorem raise_kept (s : State) (c : FaultCode) : Kept s (s.raise c) :=
  .of_frame rfl (fun _ _ => id) id fun _ => raise_count_le _ _ _

theorem raiseAll_kept (l : List FaultCode) (s : State) : Kept s (s.raiseAll l) := by
  induction l generalizing s with
  | nil => exact .refl s
  | cons c l ih => exact (raise_kept s c).trans (ih _)

theorem addNews_kept (s : State) (i : NewsItem) : Kept s (s.addNews i) := .of_same rfl

/-- A reply ends the write in progress (R186). -/
theorem reply_kept (s : State) (e : Result) (d : List Byte) : Kept s (s.reply e d) := by
  unfold State.reply
  split
  · exact .refl s
  · exact .of_frame rfl nofun id id

theorem eitherOrder_kept (s : State) {f g : State → State} (hf : ∀ u, Kept u (f u)) (hg : ∀ u, Kept u (g u)) :
    Kept s (s.eitherOrder f g) := by
  obtain ⟨l, e | e⟩ := eitherOrder_cases s f g <;> rw [e]
  · exact Kept.from ((hg _).trans (hf _)) rfl
  · exact Kept.from ((hf _).trans (hg _)) rfl

theorem take_kept {s : State} (kind : Nat) {f : List Byte → State → State} (h : ∀ p, Kept s (f p s)) :
    Kept s (s.take kind f) := by
  obtain e | e | ⟨r, -, -, -, -, e⟩ := take_cases s kind f <;> rw [e]
  · exact .refl s
  · exact reply_kept s _ _
  · exact h _

theorem storeFail_kept (s : State) (d : List Byte) : Kept s (s.storeFail d) :=
  eitherOrder_kept s (fun u => reply_kept u _ _) fun u => raise_kept u _

/-! ### Grants, recompositions and cleans -/

theorem setTiles_kept (s : State) (tm : TileMap) (h : GhostsBounded s.tiles.tiles → GhostsBounded tm.tiles) :
    Kept s (s.setTiles tm) := .of_frame rfl (fun _ _ => id) h id

theorem setDrive_kept (s : State) (d : Drive) : Kept s (s.setDrive d) := .of_same rfl

theorem choose_kept (s : State) : Kept s s.choose.2 := .of_grantWork (choose_grantWork s)

theorem startRise_kept (s : State) : Kept s s.startRise := .of_grantWork (startRise_grantWork s)

theorem startDrive_kept (s : State) : Kept s s.startDrive := .of_grantWork (startDrive_grantWork s)

theorem meetBooster_kept (s : State) : Kept s s.meetBooster := .of_grantWork (meetBooster_grantWork s)

theorem compose_kept (s : State) (b : Bands) : Kept s (s.compose b).1 := by
  refine .of_panelWork (compose_panelWork s b) (fun h => writeImages_ghosts _ _ _ _ ?_)
    (count_of_contentWork (compose_contentWork s b))
  unfold State.evaluated
  split <;> exact h

theorem formAll_kept (s : State) (rows : List Nat) : Kept s (s.formAll rows) :=
  setTiles_kept s _ (ghosts_of_sameGlass (formRows_sameGlass _ _ _))

/-- A new geometry starts with UNKNOWN tiles, whose ghost counts are 0 (R129). -/
theorem applySize_kept (s : State) (n : Nat) : Kept s (s.applySize n) :=
  .ite (fun _ => (setTiles_kept s _ fun _ => replicate_unknown_ghosts _ _).trans <|
    Kept.from ((compose_kept _ _).trans (formAll_kept _ _)) rfl) fun _ => .refl s

theorem grant_kept (s : State) (j : Job) (band : Nat) : Kept s (s.grant j band) :=
  .ite (fun _ => Kept.from ((applySize_kept _ _).trans (setDrive_kept _ _)) rfl) fun _ =>
    Kept.from (meetBooster_kept _) rfl

theorem attempt_kept (s : State) : Kept s s.attempt := by
  unfold State.attempt
  split
  · exact .refl s
  · exact grant_kept s _ _

theorem noteAttempt_kept (s : State) : Kept s s.noteAttempt :=
  .ite (fun _ => (choose_kept s).trans (attempt_kept _)) fun _ => (choose_kept s).to rfl

theorem settle_kept (s : State) : Kept s s.settle :=
  .ite (fun _ => Kept.from (attempt_kept _) rfl) fun _ => .refl s

/-- Every command that may bring a grant attempt ends so (R149). -/
theorem Kept.settle {s t : State} (h : Kept s t) : Kept s t.settle := h.trans (settle_kept t)

theorem takeTiles_kept (s : State) (a : TileMap × Bool) (h : GhostsBounded s.tiles.tiles → GhostsBounded a.1.tiles) :
    Kept s (s.takeTiles a) :=
  .ite (fun _ => (setTiles_kept s _ h).trans (noteAttempt_kept _)) fun _ => setTiles_kept s _ h

theorem handOverAll_kept (l : List Nat) (s : State) : Kept s (s.handOverAll l) := by
  induction l generalizing s with
  | nil => exact .refl s
  | cons r l ih =>
    have one : Kept s (s.handOver r) := takeTiles_kept s _ (ghosts_of_sameGlass (formRow_sameGlass _ _ _))
    exact one.trans (ih _)

theorem recompose_kept (s : State) (b : Bands) : Kept s (s.recompose b) :=
  (compose_kept s b).trans (handOverAll_kept _ _)

theorem queueFullClean_kept (s : State) : Kept s s.queueFullClean :=
  .ite (fun _ => (setTiles_kept s _ (ghosts_of_sameGlass (queueClean_sameGlass _))).trans (noteAttempt_kept _)) fun _ => .refl s

theorem returnGranted_kept (s : State) : Kept s s.returnGranted := by
  unfold State.returnGranted
  split
  · exact .refl s
  · exact (setDrive_kept s _).trans (setTiles_kept _ _ (returnJob_ghosts _ _ _))

/-! ### The board and the banks -/

theorem setBoard_kept (s : State) (b : Board) : Kept s (s.setBoard b) := .of_same rfl

theorem refillFrom_kept (s : State) (r : Roles) : Kept s (s.refillFrom r).1 :=
  .of_boardWork (refillFrom_boardWork s r) (count_of_contentWork (refillFrom_contentWork s r))

theorem rebuildFrom_kept (s : State) (r : Roles) : Kept s (s.rebuildFrom r) :=
  .of_boardWork (rebuildFrom_boardWork s r) (count_of_contentWork (rebuildFrom_contentWork s r))

theorem rebuildBoard_kept (s : State) : Kept s s.rebuildBoard := (rebuildFrom_kept s _).trans (recompose_kept _ _)

theorem insertFor_kept (s : State) (e : Entry) : Kept s (s.insertFor e).state :=
  .of_boardWork (insertEntry_boardWork s e) (count_of_contentWork (insertEntry_contentWork s e))

theorem estimateEntry_kept (s : State) (e : Entry) (second : Int) (dest : Option Nat) :
    Kept s (s.estimateEntry e second dest).state := by
  unfold State.estimateEntry
  split
  · exact .refl s
  · split
    · exact setBoard_kept s _
    · exact setBoard_kept s _

theorem applyEstimate_kept (s : State) (k : Key) (platform : Nat) (second : Int) (dest : Option Nat) :
    Kept s (s.applyEstimate k platform second dest).state := by
  unfold State.applyEstimate
  split
  · exact estimateEntry_kept s _ _ _
  · split
    · exact .refl s
    · split
      · split
        · exact insertFor_kept s _
        · exact .refl s
      · split
        · exact .refl s
        · split
          · exact insertFor_kept s _
          · exact .refl s

theorem cancelEntry_kept (s : State) (e : Entry) : Kept s (s.cancelEntry e).state := by
  unfold State.cancelEntry
  split
  · exact .refl s
  · split
    · exact setBoard_kept s _
    · dsimp only
      split
      · exact setBoard_kept s _
      · exact setBoard_kept s _

theorem applyCancel_kept (s : State) (k : Key) (platform : Nat) : Kept s (s.applyCancel k platform).state := by
  unfold State.applyCancel
  split
  · exact cancelEntry_kept s _
  · split
    · exact .refl s
    · split
      · split
        · exact insertFor_kept s _
        · exact .refl s
      · exact .refl s

theorem applyDeparted_kept (s : State) (k : Key) : Kept s (s.applyDeparted k).state := by
  unfold State.applyDeparted
  split
  · exact setBoard_kept s _
  · split
    · exact .refl s
    · split
      · split
        · exact setBoard_kept s _
        · exact .refl s
      · exact .refl s

theorem applyRestore_kept (s : State) (k : Key) : Kept s (s.applyRestore k).state := by
  unfold State.applyRestore
  split
  · exact .refl s
  · split
    · split
      · exact setBoard_kept s _
      · exact setBoard_kept s _
    · exact .refl s

theorem boardRecord_kept (s : State) (r : PredictRecord) (platform : Nat) : Kept s (s.boardRecord r platform).state := by
  unfold State.boardRecord
  split
  · exact applyEstimate_kept s _ _ _ _
  · exact applyCancel_kept s _ _
  · exact applyDeparted_kept s _
  · exact applyRestore_kept s _

theorem intake_kept (s : State) (r : PredictRecord) : Kept s (s.intake r).state := by
  unfold State.intake
  split
  · split
    · split
      · exact boardRecord_kept s r _
      · exact .refl s
    · exact .refl s
  · exact .refl s

theorem intakeAll_kept (l : List PredictRecord) (s : State) : Kept s (s.intakeAll l).1 := by
  induction l generalizing s with
  | nil => exact .refl s
  | cons r l ih => exact (intake_kept s r).trans (ih _)

theorem selectBanks_kept (s : State) : Kept s s.selectBanks := by
  unfold State.selectBanks
  split
  · exact .refl s
  · exact .ite (fun _ => .of_same rfl) fun _ => Kept.from (raise_kept _ _) rfl

theorem abortUpload_kept (s : State) : Kept s s.abortUpload := .of_same rfl

theorem touchUpload_kept (s : State) : Kept s s.touchUpload := .ite (fun _ => .of_same rfl) fun _ => .refl s

/-- A stored bank is no part of the tables. -/
theorem setBank_tables (f : Flash) (i : BankId) (x : StoredBank) :
    (f.setBank i x).texts = f.texts ∧ (f.setBank i x).glyphs = f.glyphs := by
  cases i <;> exact ⟨rfl, rfl⟩

/-- A change of a stored bank and of other fields that the tables and counts are not read from. -/
theorem Kept.of_setBank {s t : State} {i : BankId} {x : StoredBank}
    (h : watched t = watched { s with flash := s.flash.setBank i x }) : Kept s t := by
  obtain ⟨texts, glyphs⟩ := setBank_tables s.flash i x
  refine .of_same (h.trans ?_)
  simp only [watched, tablesOf, texts, glyphs]

theorem setBank_kept (s : State) (i : BankId) (x : StoredBank) : Kept s (s.setFlash (s.flash.setBank i x)) :=
  .of_setBank rfl

/-- What a failed write of a bank leaves (R41). -/
theorem leftBank_kept (s : State) (i : BankId) (x : StoredBank) : Kept s (s.fresh.2.setFlash (s.flash.setBank i x)) :=
  .of_setBank rfl

theorem failBegin_kept (s : State) (i : BankId) : Kept s (s.failBegin i) := Kept.from (storeFail_kept _ _) rfl

theorem commitBank_kept (s : State) (i : BankId) (date count : Nat) (check : BitVec 16) (commit : Nat) :
    Kept s (s.commitBank i date count check commit) := .of_setBank rfl

theorem afterCommit_kept (s : State) (before : Option BankId) {answer : State → State} (h : ∀ u, Kept u (answer u)) :
    Kept s (s.afterCommit before answer) :=
  .ite (fun _ => (selectBanks_kept s).trans (h _)) fun _ =>
    (selectBanks_kept s).trans ((rebuildFrom_kept _ _).trans (eitherOrder_kept _ h fun u => recompose_kept u _))

/-! ### The tables and the presence map (R96 to R100) -/

/-- A write that starts; a glyph's is of a width in range (R98). -/
theorem startWrite_kept (s : State) (w : FlashWrite) (h : ∀ code g, w = .glyph code g → g.inRange = true) :
    Kept s (s.startWrite w) :=
  ⟨id, fun _ hg => ⟨hg.1, fun code g e => h code g (Option.some.inj e)⟩, id⟩

theorem glyphOf_inRange {p : List Byte} (h : glyphInRange p = true) : (glyphOf p).inRange = true := by
  simp only [glyphInRange, Bool.and_eq_true] at h
  obtain ⟨⟨⟨-, low⟩, high⟩, -⟩ := h
  exact Bool.and_eq_true_iff.mpr ⟨low, high⟩

theorem putText_kept (s : State) (id : Nat) (codes : List Nat) : Kept s (s.putText id codes) :=
  ⟨fun h => ⟨tableWf_write h.1 _ _, h.2⟩, fun _ h => h, fun h => h⟩

theorem loseText_kept (s : State) (id : Nat) : Kept s (s.loseText id) :=
  ⟨fun h => ⟨tableWf_write h.1 _ _, h.2⟩, fun _ h => h, fun h => h⟩

/-- What can be present after one glyph's item is written: that item where the presence map still lists it, or what was present
before. -/
theorem glyphEntry_after_write {s t : State} {n : Nat} {y : Item Glyph} (hf : t.flash.glyphs = tableWrite s.flash.glyphs n y)
    (hp : ∀ k, k ≠ n → k ∈ t.presence.glyphs → k ∈ s.presence.glyphs) {code : Nat} {g : Glyph}
    (h : t.glyphEntry code = some g) :
    (code = n ∧ n ∈ t.presence.glyphs ∧ (tableRead t.flash.glyphs n).contents = some g) ∨ s.glyphEntry code = some g := by
  unfold State.glyphEntry at h ⊢
  split at h
  · rename_i listed
    have listed : code ∈ t.presence.glyphs := by simpa using listed
    by_cases e : code = n
    · subst e
      exact .inl ⟨rfl, listed, h⟩
    · refine .inr ?_
      rw [hf, tableRead_write_other _ e] at h
      rw [if_pos (by simpa using hp code e listed), h]
  · cases h

/-- A verified glyph write (R98). -/
theorem putGlyph_kept {s : State} {code : Nat} {g : Glyph} (h : s.link.write = some (.glyph code g)) :
    Kept s (s.putGlyph code g) where
  flash hf := ⟨hf.1, tableWf_write hf.2 _ _⟩
  glyphs := by
    rintro - ⟨present, writing⟩
    refine ⟨fun c e he => ?_, writing⟩
    have hp : ∀ k, k ≠ code → k ∈ (s.putGlyph code g).presence.glyphs → k ∈ s.presence.glyphs := fun k hk hm =>
      ((mem_presentAdd _ _ _).mp hm).resolve_left hk
    obtain ⟨-, -, written⟩ | old := glyphEntry_after_write rfl hp he
    · have same : tableRead (s.putGlyph code g).flash.glyphs code = .good g := tableRead_write_same _ _ rfl
      rw [same] at written
      cases written
      exact writing code g h
    · exact present c e old
  counts := id

/-- A failed glyph write leaves that glyph absent (R99). -/
theorem loseGlyph_kept (s : State) (code : Nat) : Kept s (s.loseGlyph code) where
  flash hf := ⟨hf.1, tableWf_write hf.2 _ _⟩
  glyphs := by
    rintro - ⟨present, writing⟩
    refine ⟨fun c e he => ?_, writing⟩
    obtain ⟨-, listed, -⟩ | old :=
      glyphEntry_after_write rfl (fun k _ hm => ((mem_presentDrop _ _ _).mp hm).1) he
    · exact absurd rfl ((mem_presentDrop _ _ _).mp listed).2
    · exact present c e old
  counts := id

section StoredItems

variable {α : Type} {t : List (Nat × Item α)} {k : Nat} {x : Item α}

theorem belowAll_of_mem {low : Option Nat} (h : tableWfAbove low t = true) (m : (k, x) ∈ t) : belowAll low k = true := by
  induction t generalizing low with
  | nil => cases m
  | cons p t ih =>
    obtain ⟨n, y⟩ := p
    simp only [tableWfAbove_cons, Bool.and_eq_true] at h
    obtain ⟨⟨below, -⟩, rest⟩ := h
    rcases List.mem_cons.mp m with e | m
    · cases e
      exact below
    · have above := ih rest m
      cases low with
      | none => rfl
      | some b =>
        simp only [belowAll, decide_eq_true_eq] at below above ⊢
        omega

/-- In a canonical table no place is listed twice, so a read gives the listed item (R96). -/
theorem tableRead_of_mem (h : tableWf t = true) (m : (k, x) ∈ t) : tableRead t k = x := by
  suffices ∀ low, tableWfAbove low t = true → tableRead t k = x from this none h
  clear h
  induction t with
  | nil => cases m
  | cons p t ih =>
    intro low h
    obtain ⟨n, y⟩ := p
    simp only [tableWfAbove_cons, Bool.and_eq_true] at h
    rcases List.mem_cons.mp m with e | m
    · cases e
      simp [tableRead]
    · have above : n < k := by simpa [belowAll] using belowAll_of_mem h.2 m
      rw [tableRead, if_neg (Nat.ne_of_lt above)]
      exact ih m _ h.2

/-- The start-up check lists only places of items whose contents pass it (R100). -/
theorem good_of_mem_tableCheck {inRange : α → Bool} (m : k ∈ (tableCheck inRange t).1) :
    ∃ a, (k, .good a) ∈ t ∧ inRange a = true := by
  induction t with
  | nil => cases m
  | cons p t ih =>
    obtain ⟨n, y⟩ := p
    have later (m : k ∈ (tableCheck inRange t).1) : ∃ a, (k, .good a) ∈ (n, y) :: t ∧ inRange a = true := by
      obtain ⟨a, ha, r⟩ := ih m
      exact ⟨a, List.mem_cons_of_mem _ ha, r⟩
    cases y with
    | erased => exact later m
    | bad => exact later m
    | good a =>
      by_cases r : inRange a = true
      · rw [tableCheck, if_pos r] at m
        rcases List.mem_cons.mp m with rfl | m
        · exact ⟨a, List.mem_cons_self, r⟩
        · exact later m
      · rw [tableCheck, if_neg r] at m
        exact later m

end StoredItems

/-- What start-up's check makes present is in range, whatever was present before (R100). -/
theorem checkTables_kept (s : State) : Kept s s.checkTables := by
  have mapped : Kept s { s with presence := ⟨(tableCheck textInRange s.flash.texts).1,
      (tableCheck Glyph.inRange s.flash.glyphs).1⟩ } := by
    refine ⟨id, fun hf hg => ⟨fun code g h => ?_, hg.2⟩, id⟩
    unfold State.glyphEntry at h
    split at h
    · rename_i listed
      obtain ⟨a, ha, r⟩ := good_of_mem_tableCheck (List.contains_iff_mem.mp listed)
      rw [tableRead_of_mem hf.2 ha] at h
      cases h
      exact r
    · cases h
  exact mapped.trans (raiseAll_kept _ _)

/-- A write cut short keeps the tables canonical (R96, R99). -/
theorem cut_sound {f : Flash} (h : f.sound) (n : Nat) (target : Option BankId) (w : FlashWrite) : (f.cut n target w).sound := by
  have banks (i : BankId) (x : StoredBank) : (f.setBank i x).sound := by
    obtain ⟨texts, glyphs⟩ := setBank_tables f i x
    exact ⟨texts ▸ h.1, glyphs ▸ h.2⟩
  cases w with
  | config => exact h
  | window => exact h
  | bankErase => exact banks _ _
  | fillingHeader => exact banks _ _
  | tripBlock =>
    cases target with
    | none => exact h
    | some i => exact banks _ _
  | commitHeader => exact banks _ _
  | text => exact ⟨tableWf_write h.1 _ _, h.2⟩
  | glyph => exact ⟨h.1, tableWf_write h.2 _ _⟩

theorem cutWrite_sound {s : State} (h : s.flash.sound) : s.cutWrite.1.sound := by
  unfold State.cutWrite
  split
  · exact h
  · exact cut_sound h _ _ _

/-- A reset of every block: no glyph is present, no write is in progress and every count is 0 (R134, R182, R193). -/
theorem dropped_kept (s : State) (phase : Phase) (cause : ResetCause) : Kept s (s.dropped phase cause) where
  flash := cutWrite_sound
  glyphs _ _ := ⟨nofun, nofun⟩
  counts _ := ⟨replicate_unknown_ghosts _ _, Nat.zero_le _⟩

/-! ### Events at the Panel Drive -/

theorem takeBrownout_kept (s : State) : Kept s s.takeBrownout := by
  unfold State.takeBrownout
  split
  · exact .of_same rfl
  · exact Kept.from ((returnGranted_kept _).trans (attempt_kept _)) rfl
  · exact .of_same rfl
  · exact .of_same rfl

theorem takeSupplyRise_kept (s : State) : Kept s s.takeSupplyRise :=
  .ite (fun _ => (setDrive_kept s _).trans (startRise_kept _)) fun _ => setDrive_kept s _

theorem takeLingerExpiry_kept (s : State) : Kept s s.takeLingerExpiry :=
  .ite (fun _ => setDrive_kept s _) fun _ => .refl s

theorem endCutFrame_kept (s : State) : Kept s s.endCutFrame := by
  have ended : Kept s (if s.drive.brownedOut then
      s.setDrive (Drive.lowered { s.drive with cutFrame := false, brownedOut := false })
    else { s with
      drive := Drive.raised { s.drive with cutFrame := false, brownedOut := false }
      timers := s.timers.startLinger }) := .ite (fun _ => .of_same rfl) fun _ => .of_same rfl
  have raised := ended.trans (raise_kept _ .drive312)
  exact .ite (fun _ => raised.trans (meetBooster_kept _)) fun _ => raised

theorem abortDrive_kept (s : State) : Kept s s.abortDrive := by
  unfold State.abortDrive
  split
  · exact .refl s
  · exact (setDrive_kept s _).trans
      ((setTiles_kept _ _ (abortJob_ghosts _ _ _ _)).trans ((attempt_kept _).trans (raise_kept _ _)))

theorem completeDrive_kept (s : State) : Kept s s.completeDrive := by
  unfold State.completeDrive
  split
  · exact .refl s
  · exact (setTiles_kept s _ (completeJob_ghosts _ _ _ _ _)).trans (Kept.from (attempt_kept _) rfl)

theorem takeFrameEnd_kept (s : State) : Kept s s.takeFrameEnd :=
  .ite (fun _ => .refl s) fun _ => .ite (fun _ => endCutFrame_kept s) fun _ =>
    .ite (fun _ => (setDrive_kept s _).trans (abortDrive_kept _)) fun _ =>
      .ite (fun _ => (setDrive_kept s _).trans (completeDrive_kept _)) fun _ => setDrive_kept s _

theorem resetDrive_kept (s : State) : Kept s s.resetDrive := by
  unfold State.resetDrive
  split
  · exact .of_same rfl
  · exact .of_same rfl
  · exact .of_same rfl
  · exact .of_same rfl

theorem resetBlocks_kept (s : State) : Kept s s.resetBlocks := by
  refine Kept.trans ?_ (resetDrive_kept _)
  exact .of_frame rfl nofun id fun _ => Nat.zero_le _

theorem takeRequestReset_kept (s : State) : Kept s s.takeRequestReset :=
  (resetBlocks_kept s).trans <| (rebuildFrom_kept _ _).trans <|
    (takeTiles_kept _ _ (requestReset_ghosts _ _)).trans <| (recompose_kept _ _).trans (recompose_kept _ _)

theorem driveEvent_kept (s : State) (e : DriveEvent) : Kept s (s.driveEvent e) := by
  refine .ite (fun _ => setDrive_kept s _) fun _ => ?_
  cases e with
  | brownout => exact takeBrownout_kept s
  | supplyRise => exact takeSupplyRise_kept s
  | lingerExpiry => exact takeLingerExpiry_kept s
  | frameEnd => exact takeFrameEnd_kept s
  | requestReset => exact takeRequestReset_kept s

theorem driveEvents_kept (l : List DriveEvent) (s : State) : Kept s (s.driveEvents l) := by
  induction l generalizing s with
  | nil => exact .refl s
  | cons e l ih => exact (driveEvent_kept s e).trans (ih _)

theorem releaseHeld_kept (s : State) : Kept s s.releaseHeld := (setDrive_kept s _).trans (driveEvents_kept _ _)

theorem moveLevel_kept (s : State) (above : Bool) : Kept s (s.moveLevel above) :=
  .ite (fun _ => .refl s) fun _ => driveEvent_kept s _

theorem seeVoltage_kept (s : State) (mv : Int) : Kept s (s.seeVoltage mv) :=
  .ite (fun _ => .refl s) fun _ => moveLevel_kept s _

theorem moveThreshold_kept (s : State) (old : Nat) : Kept s (s.moveThreshold old) :=
  Kept.from (seeVoltage_kept s.fresh.2 _) rfl

theorem failRise_kept (s : State) : Kept s s.failRise :=
  (setDrive_kept s _).trans <| (returnGranted_kept _).trans <| (raise_kept _ _).trans (attempt_kept _)

/-! ### The identity exchange (R170, R171, R194) -/

theorem raiseIdentity_kept (s : State) (fault : Option FaultCode) : Kept s (s.raiseIdentity fault) := by
  cases fault with
  | none => exact .refl s
  | some f => exact raise_kept s f

theorem decideClean_kept (s : State) (fault : Option FaultCode) : Kept s (s.decideClean fault) :=
  .ite (fun _ => (returnGranted_kept s).trans (attempt_kept _)) fun _ =>
    .ite (fun _ => meetBooster_kept s) fun _ => .refl s

theorem takeHeldFirst_kept (s : State) : Kept s s.takeHeldFirst :=
  (setDrive_kept s _).trans ((driveEvents_kept _ _).trans (setDrive_kept _ _))

theorem endCleanExchange_kept (s : State) (fault : Option FaultCode) : Kept s (s.endCleanExchange fault) :=
  .ite (fun _ => (raiseIdentity_kept s fault).trans (decideClean_kept _ _)) fun _ =>
    .ite (fun _ => (raiseIdentity_kept s fault).trans <| (choose_kept _).trans <|
        (takeHeldFirst_kept _).trans (decideClean_kept _ _)) fun _ =>
      (raiseIdentity_kept s fault).trans ((choose_kept _).trans (decideClean_kept _ _))

theorem endStartUp_kept (s : State) (fault : Option FaultCode) : Kept s (s.endStartUp fault) := by
  have queued : Kept (s.raiseIdentity fault) (State.setTiles { s.raiseIdentity fault with phase := .running }
      (s.raiseIdentity fault).tiles.queueClean.1) :=
    .of_frame rfl (fun _ _ => id) (ghosts_of_sameGlass (queueClean_sameGlass _)) id
  exact (raiseIdentity_kept s fault).trans <| queued.trans <| (attempt_kept _).trans <|
    (raise_kept _ _).trans (addNews_kept _ _)

/-! ### Samples and start-up -/

theorem setDuty_kept (s : State) : Kept s s.setDuty := .of_same rfl

theorem judgeConserve_kept (s : State) (vs : Nat) : Kept s (s.judgeConserve vs) :=
  .ite (fun _ => .ite (fun _ => .of_same rfl) fun _ =>
      .ite (fun _ => Kept.from (raise_kept _ _) rfl) fun _ => .refl s) fun _ =>
    .ite (fun _ => Kept.from ((raise_kept _ _).trans (setDuty_kept _)) rfl) fun _ => .refl s

theorem sampleOwn_kept (s : State) (mv c : Int) : Kept s (s.sampleOwn mv c) := Kept.from (judgeConserve_kept _ _) rfl

theorem tempFault_kept (s : State) (c : Int) : Kept s (s.tempFault c) :=
  .ite (fun _ => raise_kept s _) fun _ => .ite (fun _ => raise_kept s _) fun _ => .refl s

theorem handConserve_kept (s : State) (was : Bool) : Kept s (s.handConserve was) :=
  .ite (fun _ => .refl s) fun _ =>
    .ite (fun _ => (recompose_kept s _).trans (noteAttempt_kept _)) fun _ => recompose_kept s _

theorem sample_kept (s : State) (mv c : Int) : Kept s (s.sample mv c) :=
  (sampleOwn_kept s mv c).trans <|
    (eitherOrder_kept _ (fun u => handConserve_kept u _) fun u => tempFault_kept u c).trans (noteAttempt_kept _)

/-- The geometry that start-up loads starts with UNKNOWN tiles, whose ghost counts are 0 (R134). -/
theorem loadConfig_kept (s : State) : Kept s s.loadConfig := by
  have loaded : Kept s { s with
      cfg := s.flash.config.loadConfig.1
      timers := .afterReset s.flash.config.loadConfig.1
      composer := .afterReset (s.flash.config.loadConfig.1.param 1) (s.flash.config.loadConfig.1.param 2)
      tiles := .afterReset (s.flash.config.loadConfig.1.param 1) (s.flash.config.loadConfig.1.param 2) } :=
    .of_frame rfl (fun _ _ => id) (fun _ => replicate_unknown_ghosts _ _) id
  exact .ite (fun _ => loaded.trans (raise_kept _ _)) fun _ => loaded

theorem checkBank_kept (s : State) (i : BankId) (f : FaultCode) : Kept s (s.checkBank i f) :=
  .ite (fun _ => Kept.from (raise_kept _ _) rfl) fun _ => .of_same rfl

theorem firstSample_kept (s : State) (mv c : Int) : Kept s (s.firstSample mv c) :=
  (seeVoltage_kept s mv).trans <| (sampleOwn_kept _ _ _).trans <| (tempFault_kept _ _).to rfl

theorem firstImage_kept (s : State) : Kept s s.firstImage := (compose_kept s _).trans (formAll_kept _ _)

theorem startUp_kept (s : State) (br1 br0 above : Bool) (mv c : Int) : Kept s (s.startUp br1 br0 above mv c) :=
  Kept.from ((loadConfig_kept _).trans <| (checkBank_kept _ _ _).trans <| (checkBank_kept _ _ _).trans <|
    (checkTables_kept _).trans <| (firstSample_kept _ _ _).trans <| (firstImage_kept _).trans (setDrive_kept _ _)) rfl

/-! ### Notices, the clock, parameters and the receiver -/

theorem decideNotices_kept (s : State) (l : List Notice) : Kept s (s.decideNotices l).1 := .of_same rfl

theorem noticeChange_kept (s : State) (l : List Notice) {answer : State → State} (h : ∀ u, Kept u (answer u)) :
    Kept s (s.noticeChange l answer) :=
  (decideNotices_kept s l).trans
    (eitherOrder_kept _ h fun u => .ite (fun _ => recompose_kept u _) fun _ => .refl u)

theorem expireNotices_kept (s : State) : Kept s s.expireNotices := by
  unfold State.expireNotices
  split
  · exact .refl s
  · exact .ite (fun _ => (decideNotices_kept s _).trans (recompose_kept _ _)) fun _ => decideNotices_kept s _

theorem sweepBoard_kept (s : State) : Kept s s.sweepBoard := .ite (fun _ => setBoard_kept s _) fun _ => .refl s

theorem adoptTime_kept (s : State) (t : ClockTime) : Kept s (s.adoptTime t) := .of_same rfl

theorem timeEffects_kept (s : State) (c : TimeCase) : Kept s (s.timeEffects c) := by
  cases c with
  | firstSet => exact (selectBanks_kept s).trans (rebuildBoard_kept _)
  | dateChange => exact (selectBanks_kept s).trans (rebuildBoard_kept _)
  | jump => exact (rebuildBoard_kept s).trans (raise_kept _ _)
  | adjust => exact .refl s

theorem rollover_kept (s : State) : Kept s s.rollover :=
  (setBoard_kept s _).trans <| (selectBanks_kept _).trans <| (refillFrom_kept _ _).trans <|
    (recompose_kept _ _).trans (addNews_kept _ _)

theorem dailyClean_kept (s : State) (minute : Nat) : Kept s (s.dailyClean minute) :=
  .ite (fun _ => queueFullClean_kept s) fun _ => .refl s

theorem frontlightMatch_kept (s : State) (minute : Nat) : Kept s (s.frontlightMatch minute) :=
  .ite (fun _ => .of_same rfl) fun _ => .ite (fun _ => .of_same rfl) fun _ => .refl s

theorem minuteTick_kept (s : State) (minute : Nat) : Kept s (s.minuteTick minute) :=
  (refillFrom_kept s _).trans <| (recompose_kept _ _).trans <| (dailyClean_kept _ _).trans (frontlightMatch_kept _ _)

theorem secondEvent_kept (s : State) (t : ClockTime) : Kept s (s.secondEvent t) := by
  have rolled : Kept s (if t.second = 86399 then State.rollover { s with clock := ⟨some t.tick, 0⟩ }
      else { s with clock := ⟨some t.tick, 0⟩ }) :=
    .ite (fun _ => Kept.from (rollover_kept _) rfl) fun _ => .of_same rfl
  exact .ite (fun _ => rolled.trans (minuteTick_kept _ _)) fun _ => rolled

theorem setTimers_kept (s : State) (t : Timers) : Kept s (s.setTimers t) := .of_same rfl

theorem dropHidden_kept (s : State) : Kept s s.dropHidden :=
  .ite (fun _ => .refl s) fun _ => (setBoard_kept s _).trans (recompose_kept _ _)

theorem regrace_kept (s : State) : Kept s s.regrace :=
  .ite (fun _ => .refl s) fun _ => (setBoard_kept s _).trans (recompose_kept _ _)

/-- Whatever a parameter's owner does with its new value (R188). -/
theorem handParam_kept (s : State) (id old : Nat) : Kept s (s.handParam id old) := by
  have sized : Kept s (if s.sizeDiffers then s.queueFullClean else s) := .ite (fun _ => queueFullClean_kept s) fun _ => .refl s
  unfold State.handParam
  split
  · exact sized
  · exact sized
  · exact recompose_kept s _
  · exact dropHidden_kept s
  · exact regrace_kept s
  · exact recompose_kept s _
  · exact recompose_kept s _
  · exact recompose_kept s _
  · exact recompose_kept s _
  · exact recompose_kept s _
  · exact recompose_kept s _
  · exact recompose_kept s _
  · exact setTimers_kept s _
  · exact takeTiles_kept s _ (newLimit_ghosts _ _ _ _)
  · exact moveThreshold_kept s _
  · exact setTimers_kept s _
  · exact setTimers_kept s _
  · exact setTimers_kept s _
  · exact setDuty_kept s
  · exact setDuty_kept s
  · exact .refl s

theorem failConfig_kept (s : State) (d : List Byte) : Kept s (s.failConfig d) := Kept.from (storeFail_kept _ _) rfl

theorem adoptConfig_kept (s : State) (c : ConfigRecord) : Kept s (s.adoptConfig c) := .of_same rfl

theorem setReceiver_kept (s : State) (r : Receiver) : Kept s (s.setReceiver r) := .of_same rfl

theorem handFrame_kept (s : State) (r : Request) : Kept s (s.handFrame r) := .ite (fun _ => .of_same rfl) fun _ => .of_same rfl

theorem receiveByte_kept (s : State) (b : Byte) : Kept s (s.receiveByte b) := by
  unfold State.receiveByte
  split
  · exact .ite (fun _ => setReceiver_kept s _) fun _ => .refl s
  · exact .ite (fun _ => setReceiver_kept s _) fun _ =>
      .ite (fun _ => .ite (fun _ => (setReceiver_kept s _).trans (handFrame_kept _ _)) fun _ => setReceiver_kept s _)
        fun _ => setReceiver_kept s _

theorem receiveBytes_kept (l : List Byte) (s : State) : Kept s (s.receiveBytes l) := by
  induction l generalizing s with
  | nil => exact .refl s
  | cons b l ih => exact (receiveByte_kept s b).trans (ih _)

/-! ### The commands -/

/-- Whatever next state a command answers, the tables and counts are kept. -/
def Keeps (s : State) (o : Host.Outcome State Fault Refusal) : Prop := ∀ t, o = .next t → Kept s t

theorem Keeps.next {s t : State} (h : Kept s t) : Keeps s (.next t) := by
  rintro u ⟨⟩
  exact h

theorem execFrameReceived_keeps (bytes : List Byte) (s : State) : Keeps s (execFrameReceived bytes s) :=
  .next <| .ite (fun _ => receiveBytes_kept bytes s) fun _ => .refl s

theorem execBadKind_keeps (s : State) : Keeps s (execBadKind s) := by
  refine .next ?_
  split
  · exact .refl s
  · exact .ite (fun _ => reply_kept s _ _) fun _ => .refl s

theorem execStatus_keeps (s : State) : Keeps s (execStatus s) :=
  .next <| take_kept _ fun _ => Kept.from (reply_kept _ _ _) rfl

theorem execTimeSet_keeps (s : State) : Keeps s (execTimeSet s) :=
  .next <| Kept.settle <| take_kept _ fun _ =>
    .ite (fun _ => (adoptTime_kept s _).trans <| (timeEffects_kept _ _).trans <|
      eitherOrder_kept _ (fun u => reply_kept u _ _) fun u => recompose_kept u _) fun _ => reply_kept s _ _

theorem execConfigSet_keeps (s : State) : Keeps s (execConfigSet s) :=
  .next <| take_kept _ fun _ =>
    .ite (fun _ => .ite (fun _ => startWrite_kept s _ nofun) fun _ => reply_kept s _ _) fun _ => reply_kept s _ _

theorem execConfigWriteEnd_keeps (verified : Bool) (s : State) : Keeps s (execConfigWriteEnd verified s) := by
  refine .next ?_
  split
  · exact .ite (fun _ => Kept.settle <| (adoptConfig_kept s _).trans <|
      eitherOrder_kept _ (fun u => reply_kept u _ _) fun u => handParam_kept u _ _) fun _ => failConfig_kept s _
  · exact .refl s

theorem execConfigGet_keeps (s : State) : Keeps s (execConfigGet s) :=
  .next <| take_kept _ fun _ =>
    .ite (fun _ => reply_kept s _ _) fun _ => .ite (fun _ => reply_kept s _ _) fun _ => reply_kept s _ _

theorem execWindowSet_keeps (s : State) : Keeps s (execWindowSet s) :=
  .next <| take_kept _ fun _ =>
    .ite (fun _ => startWrite_kept s _ nofun) fun _ => .ite (fun _ => reply_kept s _ _) fun _ => reply_kept s _ _

theorem execWindowWriteEnd_keeps (verified : Bool) (s : State) : Keeps s (execWindowWriteEnd verified s) := by
  refine .next ?_
  split
  · exact .ite (fun _ => (adoptConfig_kept s _).trans (reply_kept _ _ _)) fun _ => failConfig_kept s _
  · exact .refl s

theorem execUploadBegin_keeps (s : State) : Keeps s (execUploadBegin s) :=
  .next <| take_kept _ fun _ => (touchUpload_kept s).trans <|
    .ite (fun _ => reply_kept _ _ _) fun _ =>
      .ite (fun _ => Kept.from (startWrite_kept _ _ nofun) rfl) fun _ => reply_kept _ _ _

theorem execBankEraseEnd_keeps (verified : Bool) (s : State) : Keeps s (execBankEraseEnd verified s) := by
  refine .next ?_
  split
  · exact .ite (fun _ => (setBank_kept s _ _).trans (startWrite_kept _ _ nofun)) fun _ =>
      (leftBank_kept s _ _).trans (failBegin_kept _ _)
  · exact .refl s

theorem execFillingHeaderWriteEnd_keeps (verified : Bool) (s : State) :
    Keeps s (execFillingHeaderWriteEnd verified s) := by
  refine .next ?_
  split
  · refine .ite (fun _ => Kept.trans ?_ (reply_kept _ _ _)) fun _ => (leftBank_kept s _ _).trans (failBegin_kept _ _)
    exact .of_setBank rfl
  · exact .refl s

theorem execTripBlock_keeps (s : State) : Keeps s (execTripBlock s) := by
  refine .next <| take_kept _ fun _ => (touchUpload_kept s).trans ?_
  dsimp only
  split
  · exact reply_kept _ _ _
  · split
    · exact reply_kept _ _ _
    · exact startWrite_kept _ _ nofun

theorem execTripBlockWriteEnd_keeps (verified : Bool) (s : State) : Keeps s (execTripBlockWriteEnd verified s) := by
  refine .next ?_
  split
  · exact .ite (fun _ => (setBank_kept s _ _).trans (Kept.from (reply_kept _ _ _) rfl)) fun _ =>
      (leftBank_kept s _ _).trans ((abortUpload_kept _).trans (storeFail_kept _ _))
  · exact .refl s

theorem execUploadCommit_keeps (s : State) : Keeps s (execUploadCommit s) := by
  refine .next <| take_kept _ fun _ => (touchUpload_kept s).trans ?_
  dsimp only
  split
  · exact reply_kept _ _ _
  · exact .ite (fun _ => startWrite_kept _ _ nofun) fun _ => reply_kept _ _ _

theorem execCommitHeaderWriteEnd_keeps (verified : Bool) (s : State) :
    Keeps s (execCommitHeaderWriteEnd verified s) := by
  refine .next ?_
  split
  · exact .ite (fun _ => Kept.settle <| (commitBank_kept s _ _ _ _ _).trans
        (afterCommit_kept _ _ fun u => reply_kept u _ _)) fun _ =>
      (leftBank_kept s _ _).trans ((abortUpload_kept _).trans (storeFail_kept _ _))
  · exact .refl s

theorem execUploadAbort_keeps (s : State) : Keeps s (execUploadAbort s) :=
  .next <| take_kept _ fun _ =>
    .ite (fun _ => (abortUpload_kept s).trans (reply_kept _ _ _)) fun _ => reply_kept s _ _

theorem execUploadIdleTimeout_keeps (s : State) : Keeps s (execUploadIdleTimeout s) :=
  .next <| .ite (fun _ => (abortUpload_kept s).trans ((raise_kept _ _).trans (addNews_kept _ _))) fun _ => .refl s

theorem execPredict_keeps (s : State) : Keeps s (execPredict s) :=
  .next <| Kept.settle <| take_kept _ fun _ =>
    .ite (fun _ => (intakeAll_kept _ s).trans <| eitherOrder_kept _ (fun u => reply_kept u _ _) fun u =>
      .ite (fun _ => recompose_kept u _) fun _ => .refl u) fun _ => reply_kept s _ _

theorem execNoticePost_keeps (s : State) : Keeps s (execNoticePost s) := by
  refine .next <| Kept.settle <| take_kept _ fun _ => ?_
  split
  · exact reply_kept s _ _
  · exact noticeChange_kept s _ fun u => reply_kept u _ _

theorem execNoticeWithdraw_keeps (s : State) : Keeps s (execNoticeWithdraw s) :=
  .next <| Kept.settle <| take_kept _ fun _ =>
    .ite (fun _ => reply_kept s _ _) fun _ =>
      .ite (fun _ => noticeChange_kept s _ fun u => reply_kept u _ _) fun _ => reply_kept s _ _

theorem execTextPut_keeps (s : State) : Keeps s (execTextPut s) :=
  .next <| take_kept _ fun _ => .ite (fun _ => startWrite_kept s _ nofun) fun _ => reply_kept s _ _

theorem execTextWriteEnd_keeps (verified : Bool) (s : State) : Keeps s (execTextWriteEnd verified s) := by
  refine .next ?_
  split
  · exact Kept.settle <| .ite
      (fun _ => (putText_kept s _ _).trans <| eitherOrder_kept _ (fun u => reply_kept u _ _) fun u => recompose_kept u _)
      fun _ => (loseText_kept s _).trans <| eitherOrder_kept _ (fun u => storeFail_kept u _) fun u => recompose_kept u _
  · exact .refl s

/-- A GLYPH_PUT of a width that is not 1 to 40 starts no write (R98). -/
theorem execGlyphPut_keeps (s : State) : Keeps s (execGlyphPut s) := by
  refine .next <| take_kept _ fun _ => .ite (fun inRange => startWrite_kept s _ fun _ _ e => ?_) fun _ => reply_kept s _ _
  cases e
  exact glyphOf_inRange inRange

theorem execGlyphWriteEnd_keeps (verified : Bool) (s : State) : Keeps s (execGlyphWriteEnd verified s) := by
  refine .next ?_
  split
  · rename_i writing
    exact Kept.settle <| .ite
      (fun _ => (putGlyph_kept writing).trans <|
        eitherOrder_kept _ (fun u => reply_kept u _ _) fun u => recompose_kept u _)
      fun _ => (loseGlyph_kept s _).trans <| eitherOrder_kept _ (fun u => storeFail_kept u _) fun u => recompose_kept u _
  · exact .refl s

theorem execBoardRead_keeps (s : State) : Keeps s (execBoardRead s) :=
  .next <| take_kept _ fun _ => .ite (fun _ => reply_kept s _ _) fun _ => reply_kept s _ _

theorem execFaultRead_keeps (s : State) : Keeps s (execFaultRead s) := .next <| take_kept _ fun _ => reply_kept s _ _

theorem clearFaults_kept (s : State) : Kept s s.clearFaults := .of_frame rfl (fun _ _ => id) id fun _ => Nat.zero_le _

theorem execFaultClear_keeps (s : State) : Keeps s (execFaultClear s) :=
  .next <| Kept.settle <| take_kept _ fun _ =>
    (clearFaults_kept s).trans <|
      eitherOrder_kept _ (fun u => reply_kept u _ _) fun u => .ite (fun _ => noteAttempt_kept u) fun _ => .refl u

theorem execCleanNow_keeps (s : State) : Keeps s (execCleanNow s) :=
  .next <| Kept.settle <| take_kept _ fun _ =>
    .ite (fun _ => (setTiles_kept s _ (ghosts_of_sameGlass (queueClean_sameGlass _))).trans <|
      eitherOrder_kept _ (fun u => reply_kept u _ _) noteAttempt_kept) fun _ => reply_kept s _ _

theorem execReset_keeps (s : State) : Keeps s (execReset s) :=
  .next <| take_kept _ fun _ => (reply_kept s .ok []).to rfl

theorem execRequestReset_keeps (s : State) : Keeps s (execRequestReset s) :=
  .next <| .ite (fun _ => (driveEvent_kept s _).settle) fun _ => .refl s

theorem execSecondEvent_keeps (s : State) : Keeps s (execSecondEvent s) := by
  refine .next ?_
  split
  · exact .refl s
  · exact (secondEvent_kept s _).settle

theorem execSweep_keeps (s : State) : Keeps s (execSweep s) :=
  .next <| .ite (fun _ => Kept.settle <| Kept.from ((sweepBoard_kept _).trans <|
    (recompose_kept _ _).trans (expireNotices_kept _)) rfl) fun _ => .refl s

theorem execSupplySample_keeps (mv c : Int) (s : State) : Keeps s (execSupplySample mv c s) :=
  .next <| .ite (fun _ => Kept.settle <| Kept.from ((seeVoltage_kept _ _).trans (sample_kept _ _ _)) rfl)
    fun _ => .refl s

theorem execRotation_keeps (s : State) : Keeps s (execRotation s) := by
  unfold execRotation
  split
  · dsimp only
    split
    · exact .next <| Kept.settle <| Kept.from (recompose_kept _ _) rfl
    · exact .next (.of_same rfl)
  · exact .next (.refl s)

theorem execRiseExpiry_keeps (bgood : Bool) (s : State) : Keeps s (execRiseExpiry bgood s) := by
  refine .next <| .ite (fun _ => ?_) fun _ => .refl s
  refine Kept.trans (t := { s with timers := { s.timers with rise := s.timers.rise.expire } }) (.of_same rfl) ?_
  exact .ite (fun _ => (setDrive_kept _ _).trans (startDrive_kept _)) fun _ =>
    .ite (fun _ => .of_same rfl) fun _ => failRise_kept _

theorem execRetryPauseExpiry_keeps (s : State) : Keeps s (execRetryPauseExpiry s) :=
  .next <| .ite (fun _ => Kept.from (startRise_kept _) rfl) fun _ => .refl s

theorem execLingerExpiry_keeps (s : State) : Keeps s (execLingerExpiry s) :=
  .next <| .ite (fun _ => Kept.settle <| Kept.from (driveEvent_kept _ _) rfl) fun _ => .refl s

theorem execFrameEnd_keeps (s : State) : Keeps s (execFrameEnd s) :=
  .next <| .ite (fun _ => (driveEvent_kept s _).settle) fun _ => .refl s

theorem execIdentityExchange_keeps (answer : Option (Byte × Byte)) (s : State) :
    Keeps s (execIdentityExchange answer s) := by
  refine .next ?_
  split
  · exact .refl s
  · exact Kept.settle <| (setDrive_kept s _).trans <| (endStartUp_kept _ _).trans (releaseHeld_kept _)
  · exact Kept.settle <| (setDrive_kept s _).trans <| (endCleanExchange_kept _ _).trans (releaseHeld_kept _)

theorem execBrownout_keeps (s : State) : Keeps s (execBrownout s) :=
  .next <| .ite (fun _ => (moveLevel_kept s _).settle) fun _ => .refl s

theorem execSupplyLevelRise_keeps (s : State) : Keeps s (execSupplyLevelRise s) :=
  .next <| .ite (fun _ => (moveLevel_kept s _).settle) fun _ => .refl s

theorem execPowerOnReset_keeps (br1 br0 above : Bool) (mv c : Int) (s : State) :
    Keeps s (execPowerOnReset br1 br0 above mv c s) :=
  .next <| .ite (fun _ => dropped_kept s _ _) fun _ => (dropped_kept s _ _).trans (startUp_kept _ _ _ _ _ _)

theorem setLine_kept (s : State) (low : Bool) : Kept s (s.setLine low) := .of_same rfl

theorem execLineResetAssert_keeps (s : State) : Keeps s (execLineResetAssert s) :=
  .next <| .ite (fun _ => setLine_kept s _) fun _ => (dropped_kept s _ _).trans (setLine_kept _ _)

theorem execLineResetRelease_keeps (br1 br0 above : Bool) (mv c : Int) (s : State) :
    Keeps s (execLineResetRelease br1 br0 above mv c s) :=
  .next <| .ite (fun _ => (setLine_kept s _).trans ((dropped_kept _ _ _).trans (startUp_kept _ _ _ _ _ _))) fun _ =>
    setLine_kept s _

theorem execElapsedSecond_keeps (s : State) : Keeps s (execElapsedSecond s) :=
  .next <| .ite (fun _ => .of_same rfl) fun _ => .refl s

/-- Every command keeps the tables canonical, present glyphs 1 to 40 px wide and the counts in range. -/
theorem exec_keeps (c : Instr) (s : State) : Keeps s (exec c s) := by
  cases c with
  | frameReceived => exact execFrameReceived_keeps _ s
  | frameGapTimeout => exact .next (setReceiver_kept s _)
  | framingError => exact .next (setReceiver_kept s _)
  | badKind => exact execBadKind_keeps s
  | status => exact execStatus_keeps s
  | timeSet => exact execTimeSet_keeps s
  | configSet => exact execConfigSet_keeps s
  | configWriteEnd => exact execConfigWriteEnd_keeps _ s
  | configGet => exact execConfigGet_keeps s
  | windowSet => exact execWindowSet_keeps s
  | windowWriteEnd => exact execWindowWriteEnd_keeps _ s
  | uploadBegin => exact execUploadBegin_keeps s
  | bankEraseEnd => exact execBankEraseEnd_keeps _ s
  | fillingHeaderWriteEnd => exact execFillingHeaderWriteEnd_keeps _ s
  | tripBlock => exact execTripBlock_keeps s
  | tripBlockWriteEnd => exact execTripBlockWriteEnd_keeps _ s
  | uploadCommit => exact execUploadCommit_keeps s
  | commitHeaderWriteEnd => exact execCommitHeaderWriteEnd_keeps _ s
  | uploadAbort => exact execUploadAbort_keeps s
  | uploadIdleTimeout => exact execUploadIdleTimeout_keeps s
  | predict => exact execPredict_keeps s
  | noticePost => exact execNoticePost_keeps s
  | noticeWithdraw => exact execNoticeWithdraw_keeps s
  | textPut => exact execTextPut_keeps s
  | textWriteEnd => exact execTextWriteEnd_keeps _ s
  | glyphPut => exact execGlyphPut_keeps s
  | glyphWriteEnd => exact execGlyphWriteEnd_keeps _ s
  | boardRead => exact execBoardRead_keeps s
  | faultRead => exact execFaultRead_keeps s
  | faultClear => exact execFaultClear_keeps s
  | cleanNow => exact execCleanNow_keeps s
  | reset => exact execReset_keeps s
  | requestReset => exact execRequestReset_keeps s
  | secondEvent => exact execSecondEvent_keeps s
  | sweep => exact execSweep_keeps s
  | supplySample => exact execSupplySample_keeps _ _ s
  | rotation => exact execRotation_keeps s
  | riseExpiry => exact execRiseExpiry_keeps _ s
  | retryPauseExpiry => exact execRetryPauseExpiry_keeps s
  | lingerExpiry => exact execLingerExpiry_keeps s
  | frameEnd => exact execFrameEnd_keeps s
  | identityExchange => exact execIdentityExchange_keeps _ s
  | brownout => exact execBrownout_keeps s
  | supplyLevelRise => exact execSupplyLevelRise_keeps s
  | powerOnReset => exact execPowerOnReset_keeps _ _ _ _ _ s
  | lineResetAssert => exact execLineResetAssert_keeps s
  | lineResetRelease => exact execLineResetRelease_keeps _ _ _ _ _ s
  | powerLoss => exact .next (dropped_kept s _ _)
  | elapsedSecond => exact execElapsedSecond_keeps s
  | replySent => exact .next (.of_same rfl)

theorem step_keeps (s : State) : Keeps s (step s) := by
  unfold step
  split
  · exact .next (.refl s)
  · rename_i c rest _
    have queued : Kept s (s.setPending rest) := .of_same rfl
    exact fun t h => queued.trans (exec_keeps c _ t h)

/-- Settles O13, from what every command keeps. -/
theorem stepKeepsTablesAndCountsSound : Obligations.StepKeepsTablesAndCountsSound := by
  intro s t h
  obtain ⟨flash, glyphs, counts⟩ := step_keeps s t h
  exact ⟨fun sound => ⟨flash sound, glyphs sound⟩, counts⟩

end Sys2Proof.TablesAndCounts
end

section
/-! PROOFS. The Notice List's requests (07): what a decision makes of the rotation position, the tests of NOTICE_POST in their
order, the list a post leaves, and with the reply and the recomposition that follow a change, the two commands. -/

namespace Sys2Proof.NoticeRequests

open Sys2Proof.Machine

/-- The byte of a byte's value. -/
@[simp] theorem b8_toNat (b : Byte) : b8 b.toNat = [b] := by simp [b8]

/-! ### Identifiers in the list (R106, R108) -/

/-- A notice of the list has the id. -/
def Listed (l : List Notice) (id : Nat) : Prop := ∃ x ∈ l, x.id = id

theorem any_id_iff (l : List Notice) (id : Nat) : l.any (·.id == id) = true ↔ Listed l id := by
  simp [Listed]

theorem postNotice_unlisted {l : List Notice} {n : Notice} (h : ¬Listed l n.id) : postNotice l n = l ++ [n] :=
  if_neg (mt (any_id_iff l n.id).mp h)

theorem postNotice_listed {l : List Notice} {n : Notice} (h : Listed l n.id) :
    postNotice l n = l.map fun x => if x.id = n.id then n else x :=
  if_pos ((any_id_iff l n.id).mpr h)

/-- A posted notice stands in the list, in its old place or at the end. -/
theorem listed_postNotice (l : List Notice) (n : Notice) : Listed (postNotice l n) n.id := by
  by_cases h : Listed l n.id
  · obtain ⟨x, hx, e⟩ := h
    rw [postNotice_listed ⟨x, hx, e⟩]
    exact ⟨n, List.mem_map.mpr ⟨x, hx, if_pos e⟩, rfl⟩
  · rw [postNotice_unlisted h]
    exact ⟨n, by simp, rfl⟩

theorem postingNumber_append_unlisted {l : List Notice} {n : Notice} (h : ¬Listed l n.id) :
    postingNumber (l ++ [n]) n.id = (l ++ [n]).length := by
  induction l with
  | nil => simp [postingNumber]
  | cons x l ih =>
    simp only [Listed, List.mem_cons, exists_eq_or_imp, not_or] at h
    simp [postingNumber, h.1, ih h.2]

/-- The posting order number of a listed id leads to a notice of that id. -/
theorem postingNumber_of_listed {l : List Notice} {id : Nat} (h : Listed l id) :
    ∃ x, l[postingNumber l id - 1]? = some x ∧ x.id = id ∧ 1 ≤ postingNumber l id := by
  induction l with
  | nil => obtain ⟨x, hx, -⟩ := h; cases hx
  | cons y l ih =>
    by_cases e : y.id = id
    · exact ⟨y, by simp [postingNumber, e], e, by simp [postingNumber, e]⟩
    · have tail : Listed l id := by simpa [Listed, e] using h
      obtain ⟨x, hx, hid, pos⟩ := ih tail
      have number : postingNumber (y :: l) id = postingNumber l id - 1 + 1 + 1 := by
        simp only [postingNumber, if_neg e]
        rw [if_neg (by omega)]
        omega
      exact ⟨x, by rw [number]; simpa using hx, hid, by omega⟩

/-! ### The decision's position (R111) -/

/-- With a notice in the list the decision's position names one of the lowest priority number present. -/
theorem decided_position {old new : Notices} {before after : Timer} (d : NoticesDecided old new before after)
    (h : new.list ≠ []) :
    ∃ position, new.position = some position ∧
      ∃ x ∈ new.list, x.id = position ∧ ∀ y ∈ new.list, x.priority ≤ y.priority := by
  have lowest {n : Notice} (hn : n ∈ topOf new.list) : n ∈ new.list ∧ ∀ y ∈ new.list, n.priority ≤ y.priority := by
    simpa [topOf] using hn
  by_cases k : ∃ n ∈ topOf new.list, old.position = some n.id
  · obtain ⟨n, hn, e⟩ := k
    exact ⟨n.id, (d.kept ⟨n, hn, e⟩).trans e, n, (lowest hn).1, rfl, (lowest hn).2⟩
  · rcases topPriority_spec new.list with ⟨nil, -⟩ | ⟨m, hm, -, low⟩
    · exact absurd nil h
    have top : topOf new.list ≠ [] := List.ne_nil_of_mem (a := m) (by simpa [topOf, hm] using low)
    have head := List.head_mem top
    exact ⟨_, by rw [d.first k, List.head?_eq_some_head top]; rfl, _, (lowest head).1, rfl, (lowest head).2⟩

/-- Without a notice in the list the position is unset. -/
theorem decided_position_nil {old new : Notices} {before after : Timer} (d : NoticesDecided old new before after)
    (h : new.list = []) : new.position = none := by
  have empty : topOf new.list = [] := by rw [h]; rfl
  rw [d.first (by simp [empty]), empty]
  rfl

/-! ### A change of the list, its reply and its recomposition (R108, R109, R111) -/

/-- Work towards the panel is the same work beside another link. -/
theorem panelWork_withLink {s t : State} (h : PanelWork s t) (l : Link) :
    PanelWork { s with link := l } { t with link := l } := { h with link := rfl }

/-- A recomposition, or none, keeps within work towards the panel. -/
theorem recomposeIf_panelWork (c : Bool) (s : State) (b : Bands) : PanelWork s (if c then s.recompose b else s) := by
  split
  · exact recompose_panelWork s b
  · exact .refl s

/-- A reply and work towards the panel, in either order: the reply's news flag alone depends on which comes first. -/
theorem eitherOrder_reply_panelWork {s : State} {r : Request} {rest : List Request} (h : s.link.requests = r :: rest)
    (e : Result) (data : List Byte) {work : State → State} (hwork : ∀ u, PanelWork u (work u)) :
    ∃ news, PanelWork { s with link := s.link.answered r rest e.code news data }
      (s.eitherOrder (fun t => t.reply e data) work) := by
  obtain ⟨schedule, replyLast | replyFirst⟩ := eitherOrder_cases s (fun t => t.reply e data) work
  · have scheduled : PanelWork s { s with schedule := schedule } := by constructor <;> rfl
    have done := scheduled.trans (hwork { s with schedule := schedule })
    refine ⟨(work { s with schedule := schedule }).faults.newsFlag, ?_⟩
    rw [replyLast, reply_answered (done.link ▸ h), done.link]
    exact panelWork_withLink done _
  · refine ⟨s.faults.newsFlag, ?_⟩
    rw [replyFirst, reply_answered (s := { s with schedule := schedule }) h]
    exact PanelWork.trans (by constructor <;> rfl) (hwork _)

/-- At the end of a step that changes the list the decision stands, OK is answered, and what else changed is work towards the
panel. -/
theorem noticeChange_settled {s : State} {r : Request} {rest : List Request} (h : s.headIs r rest)
    (l : List Notice) (data : List Byte) :
    ∃ (news : Bool) (position : Option Nat) (rotation : Timer),
      PanelWork { s with
        notices := ⟨l, position⟩
        timers := { s.timers with rotation := rotation }
        link := s.link.answered r rest 0 news data } (s.noticeChange l fun t => t.reply .ok data).settle ∧
      NoticesDecided s.notices ⟨l, position⟩ s.timers.rotation rotation := by
  obtain ⟨frame, -, decided⟩ := decideNotices_decided s l
  have queued : (s.decideNotices l).1.link.requests = r :: rest := by rw [frame]; exact headIs_requests h
  obtain ⟨news, work⟩ := eitherOrder_reply_panelWork queued .ok data fun u =>
    recomposeIf_panelWork (s.decideNotices l).2 u noticeBand
  refine ⟨news, _, _, PanelWork.trans ?_ (work.trans (settle_panelWork _)), decided⟩
  rw [frame]
  constructor <;> rfl

/-! ### The tests of a NOTICE_POST (R107) -/

/-- The fields of a NOTICE_POST lie in their ranges. -/
def PostInRange (p : List Byte) : Prop :=
  1 ≤ u8 p 0 ∧ 1 ≤ u8 p 2 ∧ u8 p 2 ≤ 4 ∧ u8 p 3 ≤ 1 ∧ (u8 p 3 = 1 → u24 p 4 ≤ 86399)

/-- An end that a NOTICE_POST carries lies ahead of the clock. -/
def PostTimely (s : State) (p : List Byte) : Prop :=
  u8 p 3 = 1 → ∃ u, s.clock.time = some u ∧ u.second < u24 p 4

/-- The notice that a NOTICE_POST carries, with today's date at its end (R107, R108). -/
def postedNotice (s : State) (p : List Byte) : Notice :=
  ⟨u8 p 0, u8 p 1, u8 p 2, postedEnd p ((s.clock.time.map (·.date)).getD 0)⟩

/-- A posted notice ends today at the carried second, or not at all (R108). -/
theorem postedNotice_ends {s : State} {p : List Byte} (timely : PostTimely s p) :
    (u8 p 3 ≠ 1 → (postedNotice s p).ends = none) ∧
      (u8 p 3 = 1 → ∃ u, s.clock.time = some u ∧ (postedNotice s p).ends = some ⟨u.date, u24 p 4⟩) := by
  refine ⟨fun endless => if_neg endless, fun ends => ?_⟩
  obtain ⟨u, hu, -⟩ := timely ends
  exact ⟨u, hu, by simp [postedNotice, postedEnd, ends, hu]⟩

section Tests

variable {s : State} {p : List Byte}

theorem postFault_range (bad : ¬PostInRange p) : s.postFault p = some .range := by
  refine if_pos ?_
  unfold PostInRange at bad
  omega

/-- The range test is passed. -/
theorem not_outOfRange (good : PostInRange p) :
    ¬(u8 p 0 = 0 ∨ u8 p 2 = 0 ∨ 4 < u8 p 2 ∨ 1 < u8 p 3 ∨ (u8 p 3 = 1 ∧ 86399 < u24 p 4)) := by
  unfold PostInRange at good
  omega

theorem postFault_clockUnset (good : PostInRange p) (ends : u8 p 3 = 1) (unset : s.clock.time = none) :
    s.postFault p = some .clockUnset := by
  simp only [State.postFault, if_neg (not_outOfRange good), unset, if_pos ends]

theorem postFault_passed (good : PostInRange p) (ends : u8 p 3 = 1) (running : s.clock.time ≠ none)
    (late : ¬PostTimely s p) : s.postFault p = some .range := by
  obtain ⟨u, hu⟩ := Option.ne_none_iff_exists'.mp running
  have passed : u24 p 4 ≤ u.second := Nat.not_lt.mp fun ahead => late fun _ => ⟨u, hu, ahead⟩
  simp only [State.postFault, if_neg (not_outOfRange good), hu, if_pos (And.intro ends passed)]

/-- With range and end passed, the list's room alone decides. -/
theorem postFault_of_timely (good : PostInRange p) (timely : PostTimely s p) :
    s.postFault p =
      if !s.notices.list.any (·.id == u8 p 0) && 8 ≤ s.notices.list.length then some .full else none := by
  cases ht : s.clock.time with
  | none =>
    have endless : u8 p 3 ≠ 1 := fun ends => by
      obtain ⟨u, hu, -⟩ := timely ends
      rw [ht] at hu
      cases hu
    simp only [State.postFault, if_neg (not_outOfRange good), ht, if_neg endless]
  | some u =>
    have ahead : ¬(u8 p 3 = 1 ∧ u24 p 4 ≤ u.second) := fun ⟨ends, passed⟩ => by
      obtain ⟨v, hv, hlt⟩ := timely ends
      rw [ht] at hv
      cases hv
      omega
    simp only [State.postFault, if_neg (not_outOfRange good), ht, if_neg ahead]

theorem postFault_full (good : PostInRange p) (timely : PostTimely s p) (unknown : ¬Listed s.notices.list (u8 p 0))
    (full : 8 ≤ s.notices.list.length) : s.postFault p = some .full := by
  rw [postFault_of_timely good timely, if_pos]
  simpa [full, Listed] using unknown

theorem postFault_none (good : PostInRange p) (timely : PostTimely s p)
    (room : Listed s.notices.list (u8 p 0) ∨ s.notices.list.length < 8) : s.postFault p = none := by
  rw [postFault_of_timely good timely, if_neg]
  rcases room with known | short
  · simp [(any_id_iff _ _).mpr known]
  · simp [Nat.not_le.mpr short]

end Tests

/-! ### The commands' shapes (R107, R109) -/

section Requests

variable {s : State} {r : Request} {rest : List Request}

/-- A refusal answers, and brings no attempt. -/
theorem reply_settled (h : s.headIs r rest) (waiting : s.attemptWaiting = false) (e : Result) (data : List Byte) :
    (s.reply e data).settle = { s with link := s.link.answered r rest e.code s.faults.newsFlag data } := by
  rw [reply_answered (headIs_requests h)]
  exact settle_of_not_waiting waiting

/-- A taken NOTICE_WITHDRAW of the only length its kind allows (R109, R186). -/
theorem exec_noticeWithdraw_of_headIs {id : Byte} (h : s.headIs r rest) (hk : r.kind = 0x0C) (hp : r.payload = [id]) :
    exec .noticeWithdraw s = .next (State.settle
      (if id.toNat = 0 then s.reply .range ([id] ++ b8 s.notices.list.length)
      else if s.notices.list.any (·.id == id.toNat) then
        s.noticeChange (s.notices.list.filter (·.id != id.toNat))
          fun t => t.reply .ok ([id] ++ b8 (s.notices.list.filter (·.id != id.toNat)).length)
      else s.reply .unknownId ([id] ++ b8 s.notices.list.length))) := by
  have hkind : r.kind.toNat = 0x0C := by rw [hk]; rfl
  have hlen : lengthAllowed 0x0C r.payload.length = true := by rw [hp]; rfl
  refine congrArg (fun t => Host.Outcome.next (State.settle t)) ((take_work h hkind hlen _).trans ?_)
  simp only [hp, u8, List.getD_cons_zero, b8_toNat]

/-- A taken NOTICE_POST that fails a test (R107, R186). -/
theorem exec_noticePost_refused (h : s.headIs r rest) (hk : r.kind = 0x0B) (hl : r.payload.length = 7)
    (waiting : s.attemptWaiting = false) {e : Result} (he : s.postFault r.payload = some e) :
    exec .noticePost s = .next { s with
      link := s.link.answered r rest e.code s.faults.newsFlag
        (b8 (u8 r.payload 0) ++ b8 0 ++ b8 s.notices.list.length) } := by
  have hkind : r.kind.toNat = 0x0B := by rw [hk]; rfl
  have hlen : lengthAllowed 0x0B r.payload.length = true := by rw [hl]; rfl
  rw [← reply_settled h waiting]
  refine congrArg (fun t => Host.Outcome.next (State.settle t)) ((take_work h hkind hlen _).trans ?_)
  simp only [he]

/-- A taken NOTICE_POST that passes every test (R108, R186). -/
theorem exec_noticePost_filed (h : s.headIs r rest) (hk : r.kind = 0x0B) (hl : r.payload.length = 7)
    (passes : s.postFault r.payload = none) {n : Notice} (hn : postedNotice s r.payload = n) :
    exec .noticePost s = .next (State.settle (s.noticeChange (postNotice s.notices.list n) fun t =>
      t.reply .ok (b8 n.id ++ b8 (postingNumber (postNotice s.notices.list n) n.id) ++
        b8 (postNotice s.notices.list n).length))) := by
  have hkind : r.kind.toNat = 0x0B := by rw [hk]; rfl
  have hlen : lengthAllowed 0x0B r.payload.length = true := by rw [hl]; rfl
  refine congrArg (fun t => Host.Outcome.next (State.settle t)) ((take_work h hkind hlen _).trans ?_)
  subst hn
  simp only [passes]
  rfl

end Requests

/-- Settles O45, from the command's shape and what a change of the list brings. -/
theorem noticeWithdrawRemovesTheNotice : Obligations.NoticeWithdrawRemovesTheNotice := by
  intro s r rest id h hk hp waiting
  have run := exec_noticeWithdraw_of_headIs h hk hp
  have nonzero (hne : id ≠ 0) : id.toNat ≠ 0 := fun e => hne (BitVec.eq_of_toNat_eq e)
  refine ⟨fun hzero => ?_, fun hne unknown => ?_, fun hne known => ?_⟩
  · rw [run, if_pos (by rw [hzero]; rfl), reply_settled h waiting]
    rfl
  · rw [run, if_neg (nonzero hne), if_neg (mt (any_id_iff _ _).mp unknown), reply_settled h waiting]
    rfl
  · rw [if_neg (nonzero hne), if_pos ((any_id_iff _ _).mpr known)] at run
    obtain ⟨news, position, rotation, work, decided⟩ := noticeChange_settled h (s.notices.list.filter (·.id != id.toNat))
      ([id] ++ b8 (s.notices.list.filter (·.id != id.toNat)).length)
    refine ⟨_, news, _, position, rotation, run, work, ?_, decided_position_nil decided, decided⟩
    refine List.filter_congr fun x _ => Bool.eq_iff_iff.mpr ?_
    rw [bne_iff_ne, decide_eq_true_iff]

/-- Settles O44, from the tests in their order, the list that a post leaves, and what a change of the list brings. -/
theorem noticePostFilesTheNotice : Obligations.NoticePostFilesTheNotice := by
  intro s r rest id text priority ending e2 e1 e0 h hk hp waiting
  have hl : r.payload.length = 7 := by rw [hp]; rfl
  have refuse {e : Result} (he : s.postFault [id, text, priority, ending, e2, e1, e0] = some e) :
      exec .noticePost s = .next { s with
        link := s.link.answered r rest e.code s.faults.newsFlag ([id, 0] ++ b8 s.notices.list.length) } := by
    have run := exec_noticePost_refused h hk hl waiting (hp ▸ he)
    rw [hp, show b8 (u8 [id, text, priority, ending, e2, e1, e0] 0) = [id] from b8_toNat id] at run
    exact run
  refine ⟨fun bad => ?_, fun good ends unset => ?_, fun good ends running late => ?_, fun good timely unknown full => ?_,
    fun good timely room => ?_⟩
  · exact refuse (postFault_range bad)
  · exact refuse (postFault_clockUnset good ends unset)
  · exact refuse (postFault_passed good ends running late)
  · exact refuse (postFault_full good timely unknown full)
  · generalize hn : postedNotice s [id, text, priority, ending, e2, e1, e0] = n
    have run := exec_noticePost_filed h hk hl (hp ▸ postFault_none good timely room) (hp ▸ hn)
    obtain ⟨news, position, rotation, work, decided⟩ := noticeChange_settled h (postNotice s.notices.list n)
      (b8 n.id ++ b8 (postingNumber (postNotice s.notices.list n) n.id) ++ b8 (postNotice s.notices.list n).length)
    have hid : n.id = id.toNat := by rw [← hn]; rfl
    rw [show b8 n.id = [id] by rw [hid, b8_toNat]] at run work
    have listed := listed_postNotice s.notices.list n
    obtain ⟨top, rfl, shown⟩ := decided_position decided (List.ne_nil_of_mem listed.choose_spec.1)
    obtain ⟨endless, ends⟩ := postedNotice_ends (p := [id, text, priority, ending, e2, e1, e0]) timely
    rw [hn] at endless ends
    refine ⟨_, news, n, _, top, rotation, postingNumber (postNotice s.notices.list n) n.id, run, work,
      ⟨hid, hn ▸ rfl, hn ▸ rfl, ?_, ?_⟩, ?_, ?_, shown, decided⟩
    · rintro rfl
      exact endless Nat.zero_ne_one
    · rintro rfl
      exact ends rfl
    · intro unknown
      rw [← hid] at unknown
      rw [postNotice_unlisted unknown]
      exact ⟨rfl, postingNumber_append_unlisted unknown⟩
    · intro known
      rw [← hid] at known ⊢
      exact ⟨postNotice_listed known, postingNumber_of_listed listed⟩

end Sys2Proof.NoticeRequests
end

section
/-! PROOFS. Formation of a row's jobs (08 R120 to R123): the candidates, their spans, the jobs that the spans become in turn, and
what they make of the tiles. -/

namespace Sys2Proof.Formation

open Sys2Proof.Machine

/-! ### Candidates (R117, R121) -/

theorem needsDriving_iff (t : Tile) :
    t.needsDriving = true ↔ t.shown = none ∨ (t.wanted ≠ none ∧ t.wanted ≠ t.shown) := by
  simp [Tile.needsDriving, Option.isSome_iff_ne_none]

theorem mem_candidates_cons (t : Tile) (row : List Tile) (start c : Nat) :
    c ∈ candidates start (t :: row) ↔
      (c = start ∧ t.job = none ∧ t.needsDriving = true) ∨ c ∈ candidates (start + 1) row := by
  rw [candidates]
  split <;> rename_i h <;> rw [Bool.and_eq_true, Option.isNone_iff_eq_none] at h
  · simp only [List.mem_cons, h, and_true]
  · simp only [h, and_false, false_or]

/-- The candidates from column `start` on are the columns of the tiles without a job that need driving. -/
theorem mem_candidates (row : List Tile) (start c : Nat) :
    c ∈ candidates start row ↔
      start ≤ c ∧ ∃ x, row[c - start]? = some x ∧ x.job = none ∧ x.needsDriving = true := by
  induction row generalizing start with
  | nil => simp [candidates]
  | cons t row ih =>
    have here : c = start ∨ start + 1 ≤ c ∨ c < start := by omega
    rw [mem_candidates_cons, ih]
    rcases here with rfl | later | earlier
    · rw [Nat.sub_self]
      constructor
      · rintro (⟨-, h⟩ | ⟨lt, -⟩)
        · exact ⟨Nat.le_refl c, t, rfl, h⟩
        · omega
      · rintro ⟨-, x, hx, h⟩
        obtain rfl : t = x := Option.some.inj hx
        exact .inl ⟨rfl, h⟩
    · have place : c - start = c - (start + 1) + 1 := by omega
      rw [place, List.getElem?_cons_succ]
      constructor
      · rintro (⟨rfl, -⟩ | ⟨-, h⟩)
        · omega
        · exact ⟨Nat.le_of_succ_le later, h⟩
      · rintro ⟨-, h⟩
        exact .inr ⟨later, h⟩
    · constructor
      · rintro (⟨rfl, -⟩ | ⟨le, -⟩) <;> omega
      · rintro ⟨le, -⟩
        omega

/-- Candidates stand in rising columns. -/
theorem candidates_rising (row : List Tile) (start : Nat) : (candidates start row).Pairwise (· < ·) := by
  induction row generalizing start with
  | nil => exact .nil
  | cons t row ih =>
    unfold candidates
    split
    · exact .cons (fun c hc => ((mem_candidates row (start + 1) c).mp hc).1) (ih _)
    · exact ih _

/-! ### Spans (R121) -/

/-- The open span's first column alone depends on where it began. -/
theorem groupSpans_head (row : List Tile) (l : Nat) (cs : List Nat) :
    ∃ last rest, ∀ f, groupSpans row f l cs = (f, last) :: rest := by
  induction cs generalizing l with
  | nil => exact ⟨l, [], fun _ => rfl⟩
  | cons c cs ih =>
    by_cases h : c - l ≤ 4 ∧ gapFree row l c = true
    · obtain ⟨last, rest, eq⟩ := ih c
      exact ⟨last, rest, fun f => by rw [groupSpans, if_pos h, eq]⟩
    · exact ⟨l, groupSpans row c c cs, fun f => by rw [groupSpans, if_neg h]⟩

/-- The spans of two candidates and more: the second joins the first's span over a short gap without job references. -/
theorem spansOf_cons_cons (row : List Tile) (c d : Nat) (cs : List Nat) :
    spansOf row (c :: d :: cs) =
      if d - c ≤ 4 ∧ ((row.drop (c + 1)).take (d - c - 1)).all (fun x => x.job.isNone) = true then
        match spansOf row (d :: cs) with
        | [] => []
        | (_, l) :: rest => (c, l) :: rest
      else (c, c) :: spansOf row (d :: cs) := by
  obtain ⟨last, rest, eq⟩ := groupSpans_head row d cs
  simp only [spansOf, groupSpans, eq]
  rfl

/-- Every span of rising candidates begins with the open one or behind it, and ends before the next begins. -/
theorem groupSpans_apart (row : List Tile) (f l : Nat) (cs : List Nat) (rising : (l :: cs).Pairwise (· < ·)) :
    (groupSpans row f l cs).Pairwise (fun a b => a.2 < b.1) ∧ ∀ p ∈ groupSpans row f l cs, p.1 = f ∨ l < p.1 := by
  induction cs generalizing f l with
  | nil => simp [groupSpans]
  | cons c cs ih =>
    obtain ⟨above, tail⟩ := List.pairwise_cons.mp rising
    have lt : l < c := above c (by simp)
    unfold groupSpans
    split
    · obtain ⟨apart, starts⟩ := ih f c tail
      exact ⟨apart, fun p hp => (starts p hp).imp_right (Nat.lt_trans lt)⟩
    · obtain ⟨apart, starts⟩ := ih c c tail
      have behind : ∀ p ∈ groupSpans row c c cs, l < p.1 := fun p hp => by
        rcases starts p hp with e | e <;> omega
      exact ⟨.cons behind apart, List.forall_mem_cons.mpr ⟨.inl rfl, fun p hp => .inr (behind p hp)⟩⟩

theorem spansOf_apart (row : List Tile) (cs : List Nat) (rising : cs.Pairwise (· < ·)) :
    (spansOf row cs).Pairwise fun a b => a.2 < b.1 := by
  cases cs with
  | nil => exact .nil
  | cons c cs => exact (groupSpans_apart row c c cs rising).1

/-! ### The job of a span (R118, R122, R123) -/

/-- The job that a span of row `r` becomes on a Tile Map. -/
def spanJob (tm : TileMap) (band : JobClass) (old : List Job) (r f l : Nat) : Job :=
  ⟨lowestFree tm.jobs 16 0, tm.spanClass band r f, spanMode (tm.rowTiles r) f l, r, f, l,
    spanEnqueue old tm.elapsed f l, .queued, []⟩

theorem queueSpan_jobs (tm : TileMap) (band : JobClass) (old : List Job) (r f l : Nat) :
    (tm.queueSpan band old r f l).jobs = tm.jobs ++ [spanJob tm band old r f l] := rfl

/-- A tile of the queued span refers to its job, and every other tile stays. -/
theorem queueSpan_tile (tm : TileMap) (band : JobClass) (old : List Job) (r f l i : Nat) :
    (tm.queueSpan band old r f l).tiles[i]? = tm.tiles[i]?.map fun t =>
      if (spanJob tm band old r f l).covers tm.wt i then { t with job := some (spanJob tm band old r f l).num } else t := by
  refine (mapTiles_tile _ _ _ _).trans ?_
  rw [Nat.zero_add]
  rfl

/-- While fewer than 16 jobs are there, a new job takes the lowest number that none of them holds (R118). -/
theorem lowestFree_lowest {jobs : List Job} (room : jobs.length < 16) :
    (∀ o ∈ jobs, o.num ≠ lowestFree jobs 16 0) ∧ ∀ m, m < lowestFree jobs 16 0 → ∃ o ∈ jobs, o.num = m := by
  obtain ⟨below, all | free⟩ := lowestFree_spec jobs 16 0
  · have held : List.range 16 ⊆ jobs.map (·.num) := fun m hm => by
      have lt : m < 16 := List.mem_range.mp hm
      obtain ⟨o, ho, e⟩ := below m (Nat.zero_le m) (by omega)
      exact List.mem_map.mpr ⟨o, ho, e⟩
    have many := List.nodup_range.length_le_of_subset held
    rw [List.length_range, List.length_map] at many
    omega
  · exact ⟨free, fun m hm => below m (Nat.zero_le m) hm⟩

theorem spanMode_eq_full_iff (row : List Tile) (f l : Nat) :
    spanMode row f l = .fullMode ↔ ∃ x ∈ (row.drop f).take (l - f + 1), x.shown = none ∨ x.clearDue = true := by
  simp only [spanMode, ← Option.isNone_iff_eq_none, ← Bool.or_eq_true, ← List.any_eq_true]
  split <;> simp_all

/-- The least enqueue time of a job and others is that of one of them, and none lies below it. -/
theorem foldl_min_enqueue (l : List Job) (start : Nat) :
    let least := l.foldl (fun m k => min m k.enqueue) start
    (least = start ∨ ∃ o ∈ l, o.enqueue = least) ∧ least ≤ start ∧ ∀ o ∈ l, least ≤ o.enqueue := by
  induction l generalizing start with
  | nil => simp
  | cons k l ih =>
    obtain ⟨attained, le, low⟩ := ih (min start k.enqueue)
    refine ⟨?_, Nat.le_trans le (Nat.min_le_left ..),
      List.forall_mem_cons.mpr ⟨Nat.le_trans le (Nat.min_le_right ..), low⟩⟩
    rcases attained with e | ⟨o, ho, e⟩
    · rcases Nat.le_total start k.enqueue with first | first
      · exact .inl (e.trans (Nat.min_eq_left first))
      · exact .inr ⟨k, List.mem_cons_self, (e.trans (Nat.min_eq_right first)).symm⟩
    · exact .inr ⟨o, List.mem_cons_of_mem k ho, e⟩

/-- The enqueue time of a span: that of the earliest old job it covers, or now (R122). -/
theorem spanEnqueue_spec (old : List Job) (now f l : Nat) :
    let covered := old.filter fun o => decide (o.first ≤ l) && decide (f ≤ o.last)
    (covered = [] → spanEnqueue old now f l = now) ∧
      (covered ≠ [] → (∃ o ∈ covered, o.enqueue = spanEnqueue old now f l) ∧
        ∀ o ∈ covered, spanEnqueue old now f l ≤ o.enqueue) := by
  dsimp only [spanEnqueue]
  cases h : old.filter fun o => decide (o.first ≤ l) && decide (f ≤ o.last) with
  | nil => exact ⟨fun _ => rfl, fun k => absurd rfl k⟩
  | cons k ks =>
    obtain ⟨attained, le, low⟩ := foldl_min_enqueue ks k.enqueue
    refine ⟨fun e => (nomatch e), fun _ => ⟨?_, List.forall_mem_cons.mpr ⟨le, low⟩⟩⟩
    rcases attained with e | ⟨o, ho, e⟩
    · exact ⟨k, List.mem_cons_self, e.symm⟩
    · exact ⟨o, List.mem_cons_of_mem _ ho, e⟩

/-! ### The jobs of a row's spans, in turn (R122) -/

/-- The jobs that the spans of row `r` become, from left to right while fewer than 16 jobs are there. -/
def spanJobs (band : JobClass) (old : List Job) (r : Nat) : TileMap → List (Nat × Nat) → List Job
  | _, [] => []
  | tm, (f, l) :: rest =>
    if tm.jobs.length < 16 then spanJob tm band old r f l :: spanJobs band old r (tm.queueSpan band old r f l) rest else []

section Spans

variable (band : JobClass) (old : List Job) (r : Nat)

/-- Queuing spans adds their jobs and changes tiles alone beside. -/
theorem queueSpans_eq (spans : List (Nat × Nat)) (tm : TileMap) :
    TileMap.queueSpans band old r tm spans =
      { tm with
        jobs := tm.jobs ++ spanJobs band old r tm spans
        tiles := (TileMap.queueSpans band old r tm spans).tiles } := by
  induction spans generalizing tm with
  | nil => simp [TileMap.queueSpans, spanJobs]
  | cons p spans ih =>
    obtain ⟨f, l⟩ := p
    unfold TileMap.queueSpans spanJobs
    split
    · rw [ih, queueSpan_jobs, List.append_assoc]
      rfl
    · simp

theorem spanJobs_spans (spans : List (Nat × Nat)) (tm : TileMap) :
    (spanJobs band old r tm spans).map (fun j => (j.first, j.last)) = spans.take (16 - tm.jobs.length) := by
  induction spans generalizing tm with
  | nil => simp [spanJobs]
  | cons p spans ih =>
    obtain ⟨f, l⟩ := p
    unfold spanJobs
    split
    · rename_i room
      have left : 16 - tm.jobs.length = 16 - (tm.queueSpan band old r f l).jobs.length + 1 := by
        simp only [queueSpan_jobs, List.length_append, List.length_singleton]
        omega
      rw [List.map_cons, ih, left, List.take_succ_cons]
      rfl
    · rename_i full
      simp [show 16 - tm.jobs.length = 0 by omega]

/-- Each job among them is that of its span, on a Tile Map of the same glass that holds the jobs before it and fewer than 16. -/
theorem spanJobs_each {spans : List (Nat × Nat)} {tm : TileMap} {before after : List Job} {j : Job}
    (h : spanJobs band old r tm spans = before ++ j :: after) :
    ∃ u : TileMap, SameGlass tm u ∧ u.elapsed = tm.elapsed ∧ u.jobs = tm.jobs ++ before ∧ u.jobs.length < 16 ∧
      j = spanJob u band old r j.first j.last := by
  induction spans generalizing tm before with
  | nil => simp [spanJobs] at h
  | cons p spans ih =>
    obtain ⟨f, l⟩ := p
    unfold spanJobs at h
    split at h
    · rename_i room
      cases before with
      | nil =>
        obtain ⟨rfl, -⟩ := List.cons.inj h
        exact ⟨tm, .refl tm, rfl, by simp, room, rfl⟩
      | cons b before =>
        obtain ⟨rfl, rest⟩ := List.cons.inj h
        obtain ⟨u, glass, elapsed, jobs, few, eq⟩ := ih rest
        exact ⟨u, (queueSpan_sameGlass ..).trans glass, elapsed, by rw [jobs, queueSpan_jobs]; simp, few, eq⟩
    · simp at h

/-- What the queued spans make of a tile: the tile of a job's span refers to it where no later span holds the tile too, and a tile
of no span stays. -/
theorem queueSpans_tile {spans : List (Nat × Nat)} {tm : TileMap}
    (apart : (spanJobs band old r tm spans).Pairwise fun j k => ∀ i, j.covers tm.wt i = true → k.covers tm.wt i = false)
    {i : Nat} {a b : Tile} (ha : tm.tiles[i]? = some a)
    (hb : (TileMap.queueSpans band old r tm spans).tiles[i]? = some b) :
    (∀ j ∈ spanJobs band old r tm spans, j.covers tm.wt i = true → b = { a with job := some j.num }) ∧
      ((∀ j ∈ spanJobs band old r tm spans, j.covers tm.wt i = false) → b = a) := by
  induction spans generalizing tm a with
  | nil =>
    obtain rfl : a = b := Option.some.inj (ha.symm.trans hb)
    simp [spanJobs]
  | cons p spans ih =>
    obtain ⟨f, l⟩ := p
    unfold TileMap.queueSpans at hb
    unfold spanJobs at apart ⊢
    split at hb
    · rename_i room
      rw [if_pos room] at apart ⊢
      obtain ⟨first, others⟩ := List.pairwise_cons.mp apart
      have tile := queueSpan_tile tm band old r f l i
      rw [ha, Option.map_some] at tile
      obtain ⟨inside, outside⟩ := ih others tile hb
      rw [List.forall_mem_cons, List.forall_mem_cons]
      refine ⟨⟨fun covers => ?_, fun j hj covers => ?_⟩, fun uncovered => ?_⟩
      · rw [outside fun k hk => first k hk i covers, if_pos covers]
      · rw [inside j hj covers]
        split <;> rfl
      · rw [outside uncovered.2, if_neg (by simp [uncovered.1])]
    · rename_i full
      obtain rfl : a = b := Option.some.inj (ha.symm.trans hb)
      simp [full]

/-! ### What the jobs are (R118, R122, R123) -/

theorem spanMode_sameGlass {a b : TileMap} (h : SameGlass a b) (f l : Nat) :
    spanMode (b.rowTiles r) f l = spanMode (a.rowTiles r) f l := by
  have ofGlass (m : List Tile) : m.any (fun t => t.shown.isNone || t.clearDue) =
      (m.map Tile.glass).any fun g => g.1.isNone || g.2.2 := by rw [List.any_map]; rfl
  simp only [spanMode, TileMap.rowTiles, ofGlass, List.map_take, List.map_drop, h.glass, h.wt]

theorem spanClass_ne_clean {band : JobClass} (hband : band ≠ .clean) (tm : TileMap) (f : Nat) :
    tm.spanClass band r f ≠ .clean := by
  unfold TileMap.spanClass
  split
  · split <;> nofun
  · split
    · exact hband
    · nofun

theorem covers_iff {j : Job} (h : j.cls ≠ .clean) (wt i : Nat) :
    j.covers wt i = true ↔ i / wt = j.row ∧ j.first ≤ i % wt ∧ i % wt ≤ j.last := by
  simp [Job.covers, h, and_assoc]

section Each

variable {band old r} {spans : List (Nat × Nat)} {tm : TileMap} {before after : List Job} {j : Job}

theorem spanJobs_state (h : spanJobs band old r tm spans = before ++ j :: after) :
    j.state = .queued ∧ j.row = r ∧ j.snapshot = [] := by
  obtain ⟨u, -, -, -, -, eq⟩ := spanJobs_each band old r h
  exact ⟨congrArg Job.state eq, congrArg Job.row eq, congrArg Job.snapshot eq⟩

theorem spanJobs_num (h : spanJobs band old r tm spans = before ++ j :: after) :
    (∀ o ∈ tm.jobs ++ before, o.num ≠ j.num) ∧ ∀ m, m < j.num → ∃ o ∈ tm.jobs ++ before, o.num = m := by
  obtain ⟨u, -, -, jobs, room, eq⟩ := spanJobs_each band old r h
  have num : j.num = lowestFree u.jobs 16 0 := congrArg Job.num eq
  rw [num, ← jobs]
  exact lowestFree_lowest room

theorem spanJobs_mode (h : spanJobs band old r tm spans = before ++ j :: after) :
    j.mode = .fullMode ↔
      ∃ x ∈ ((tm.rowTiles r).drop j.first).take (j.last - j.first + 1), x.shown = none ∨ x.clearDue = true := by
  obtain ⟨u, glass, -, -, -, eq⟩ := spanJobs_each band old r h
  have mode : j.mode = spanMode (u.rowTiles r) j.first j.last := congrArg Job.mode eq
  rw [mode, spanMode_sameGlass r glass, spanMode_eq_full_iff]

theorem spanJobs_cls (h : spanJobs band old r tm spans = before ++ j :: after) :
    j.cls = tm.spanClass band r j.first := by
  obtain ⟨u, glass, -, -, -, eq⟩ := spanJobs_each band old r h
  have cls : j.cls = u.spanClass band r j.first := congrArg Job.cls eq
  rw [cls, TileMap.spanClass, glass.wt, glass.ht]
  rfl

theorem spanJobs_enqueue (h : spanJobs band old r tm spans = before ++ j :: after) :
    j.enqueue = spanEnqueue old tm.elapsed j.first j.last := by
  obtain ⟨u, -, elapsed, -, -, eq⟩ := spanJobs_each band old r h
  exact elapsed ▸ congrArg Job.enqueue eq

/-- No tile lies in the spans of two of the jobs. -/
theorem spanJobs_disjoint (hband : band ≠ .clean) (apart : spans.Pairwise fun a b => a.2 < b.1) (wt : Nat) :
    (spanJobs band old r tm spans).Pairwise fun j k => ∀ i, j.covers wt i = true → k.covers wt i = false := by
  have ordered : (spanJobs band old r tm spans).Pairwise fun j k => j.last < k.first := by
    have taken := apart.sublist (List.take_sublist (16 - tm.jobs.length) spans)
    rw [← spanJobs_spans band old r spans tm] at taken
    exact List.pairwise_map.mp taken
  have notClean {j : Job} (hj : j ∈ spanJobs band old r tm spans) : j.cls ≠ .clean := by
    obtain ⟨before, after, h⟩ := List.append_of_mem hj
    rw [spanJobs_cls h]
    exact spanClass_ne_clean r hband tm j.first
  refine ordered.imp_of_mem fun hj hk lt i covers => ?_
  rw [covers_iff (notClean hj)] at covers
  rw [← Bool.not_eq_true, covers_iff (notClean hk)]
  omega

end Each

end Spans

/-! ### Formation of a row (R120 to R123) -/

section Row

variable {tm : TileMap} (band : JobClass) (r : Nat)

/-- While a full clean waits, formation does nothing (R120). -/
theorem formRow_of_queuedClean (h : tm.queuedClean ≠ none) : (tm.formRow band r).1 = tm := by
  simp [TileMap.formRow, Option.isSome_iff_ne_none.mpr h]

/-- Otherwise the row's queued jobs are taken apart, and the spans of its candidates queued. -/
theorem formRow_of_no_queuedClean (h : tm.queuedClean = none) :
    (tm.formRow band r).1 =
      TileMap.queueSpans band (tm.jobs.filter (Job.waitsInRow r)) r (tm.removeJobs (Job.waitsInRow r))
        (spansOf ((tm.removeJobs (Job.waitsInRow r)).rowTiles r)
          (candidates 0 ((tm.removeJobs (Job.waitsInRow r)).rowTiles r))) := by
  simp [TileMap.formRow, h]

end Row

end Sys2Proof.Formation
end

section
/-! PROOFS. The last frame's end (08 R125, R130; 10 R165): what a completion makes of each tile, and what the attempt that
follows it makes of the booster. -/

namespace Sys2Proof.Completion

open Sys2Proof.Machine Sys2Proof.Formation

/-! ### A completion, tile by tile (R125, R130) -/

/-- How many tiles of a job's span stand among the first `i` tiles of a list that begins at place `start`: where the snapshot
holds the signature of the tile at `i` (R130). -/
def spanPlace (j : Job) (wt start i : Nat) : Nat := ((List.range i).filter fun k => j.covers wt (start + k)).length

@[simp] theorem spanPlace_zero (j : Job) (wt start : Nat) : spanPlace j wt start 0 = 0 := rfl

theorem spanPlace_succ (j : Job) (wt start i : Nat) :
    spanPlace j wt start (i + 1) = (if j.covers wt start then 1 else 0) + spanPlace j wt (start + 1) i := by
  have shift : (fun k => j.covers wt (start + k)) ∘ Nat.succ = fun k => j.covers wt (start + 1 + k) := by
    funext k
    exact congrArg (j.covers wt) (by simp only [Nat.succ_eq_add_one]; omega)
  simp only [spanPlace, List.range_succ_eq_map, List.filter_cons, Nat.add_zero, List.filter_map, shift]
  split <;> simp [Nat.add_comm]

/-- Each tile after a completion: a tile of the span takes its snapshot value and is driven, every other one stays. -/
theorem completeTiles_tile (j : Job) (wt limit : Nat) (ref : Option Nat) (l : List Tile) (start : Nat)
    (snap : List (Option Signature)) (i : Nat) :
    (completeTiles j wt limit ref start snap l)[i]? = l[i]?.map fun t =>
      if j.covers wt (start + i) then
        { ({ t with shown := snap[spanPlace j wt start i]?.getD none }.driven j.mode limit) with job := ref }
      else t := by
  induction l generalizing start snap i with
  | nil => rfl
  | cons t l ih =>
    cases i with
    | zero =>
      unfold completeTiles
      cases h : j.covers wt start <;> simp [List.headD_eq_head?_getD, List.head?_eq_getElem?]
    | succ i =>
      have place : start + (i + 1) = start + 1 + i := by omega
      unfold completeTiles
      cases h : j.covers wt start <;> simp [h, ih, place, spanPlace_succ, Nat.add_comm 1]

/-- What a completion makes of a tile's shown signature, ghost count and clear-due mark (R125, R130). -/
theorem completeJob_tile {tm : TileMap} {n : Nat} {j : Job} (hj : tm.job n = some j) (band : JobClass) (limit : Nat) (d : Bool)
    {i : Nat} {a b : Tile} (ha : tm.tiles[i]? = some a) (hb : (tm.completeJob band n limit d).tiles[i]? = some b) :
    (j.covers tm.wt i = false → b.shown = a.shown ∧ b.ghost = a.ghost ∧ b.clearDue = a.clearDue) ∧
    (j.covers tm.wt i = true →
      b.shown = (j.snapshot[spanPlace j tm.wt 0 i]?).getD none ∧
      (j.mode = .fullMode → b.ghost = 0 ∧ b.clearDue = false) ∧
      (j.mode = .partialMode → b.ghost = min (a.ghost + 1) 63 ∧
        (b.clearDue = true ↔ a.clearDue = true ∨ limit ≤ b.ghost))) := by
  simp only [TileMap.completeJob, hj] at hb
  have tile := completeTiles_tile j tm.wt limit (tm.queuedClean.map (·.num)) tm.tiles 0 j.snapshot i
  rw [ha, Nat.zero_add, Option.map_some] at tile
  obtain ⟨shown, ghost, clearDue⟩ := (afterJob_sameGlass _ band j d).tile tile hb
  rw [shown, ghost, clearDue]
  constructor
  · intro h
    simp [h]
  · intro h
    cases hm : j.mode <;> simp [h, Tile.driven]

theorem completeJob_geometry (tm : TileMap) (band : JobClass) (n limit : Nat) (d : Bool) :
    (tm.completeJob band n limit d).wt = tm.wt ∧ (tm.completeJob band n limit d).ht = tm.ht ∧
      (tm.completeJob band n limit d).tiles.length = tm.tiles.length := by
  unfold TileMap.completeJob
  split
  · exact ⟨rfl, rfl, rfl⟩
  · rename_i j _
    have glass := afterJob_sameGlass { tm with
      jobs := tm.jobs.filter fun k => k.num != n
      tiles := completeTiles j tm.wt limit (tm.queuedClean.map (·.num)) 0 j.snapshot tm.tiles } band j d
    exact ⟨glass.wt, glass.ht, glass.length.trans (completeTiles_length ..)⟩

/-! ### A parameter of a sound configuration (R188) -/

theorem paramsInRange_at {l : List (BitVec 32)} {id : Nat} (h : paramsInRange id l = true) {i : Nat} {v : BitVec 32}
    (hv : l[i]? = some v) : paramInRange (id + i) v.toNat = true := by
  induction l generalizing id i with
  | nil => simp at hv
  | cons w l ih =>
    obtain ⟨head, tail⟩ := Bool.and_eq_true_iff.mp h
    cases i with
    | zero =>
      obtain rfl : w = v := by simpa using hv
      exact head
    | succ i =>
      have at_tail := ih tail (i := i) (by simpa using hv)
      rwa [show id + 1 + i = id + (i + 1) by omega] at at_tail

/-- A parameter in force lies in its range when every field does. -/
theorem param_inRange {c : ConfigRecord} (h : c.inRange = true) {id : Nat} (low : 1 ≤ id) (high : id ≤ 43) :
    paramInRange id (c.param id) = true := by
  have within : id - 1 < 43 := by omega
  have read : c.params.toList[id - 1]? = some (c.params.getD (id - 1) 0) := by simp [Vector.getD, within]
  have inRange := paramsInRange_at (Bool.and_eq_true_iff.mp h).1 read
  rwa [show 1 + (id - 1) = id by omega] at inRange

/-! ### The attempt after a completion (R157, R171) -/

/-- BEN is high and the booster is READY, or DRIVING a job. -/
def StaysUp (s : State) : Prop := (s.drive.booster = .ready ∨ s.drive.booster = .driving) ∧ s.drive.ben = true

theorem startDrive_staysUp {s : State} (h : StaysUp s) : StaysUp s.startDrive := by
  unfold State.startDrive
  split
  · exact h
  · exact ⟨.inr rfl, h.2⟩

/-- A grant attempt in READY does not lower the booster while the linger timer is not due and no change of size is pending. -/
theorem attempt_staysUp {s : State} (ready : s.drive.booster = .ready) (ben : s.drive.ben = true)
    (linger : s.timers.linger.due = false) (size : s.sizeDiffers = false) : StaysUp s.attempt := by
  have up : StaysUp s := ⟨.inl ready, ben⟩
  unfold State.attempt
  split
  · exact up
  · unfold State.grant
    simp only
    split
    · rw [applySize_same (by exact size)]
      exact up
    · rw [meetBooster_ready (by exact ready) (by exact linger)]
      exact startDrive_staysUp (by exact up)

/-! ### The frame end (R165) -/

section FrameEnd

variable {s : State}

/-- A frame of a job is being driven, neither cut nor after a brownout, and nothing keeps its end from the Panel Drive
(R165 to R167, R170). -/
structure FrameRuns (s : State) : Prop where
  driving : s.drive.booster = .driving
  whole : s.drive.cutFrame = false
  supplied : s.drive.brownedOut = false
  exchange : s.drive.exchange = none
  held : s.drive.held = []

/-- The end of such a frame counts it, and completes the job with the last one (R165). -/
theorem exec_frameEnd_of_runs (h : FrameRuns s) :
    exec .frameEnd s = .next (State.settle
      (if s.drive.framesDriven + 1 = s.drive.frameCount then
        State.completeDrive (s.setDrive { s.drive with framesDriven := s.drive.framesDriven + 1 })
      else s.setDrive { s.drive with framesDriven := s.drive.framesDriven + 1 })) := by
  simp [exec, execFrameEnd, State.driveEvent, State.takeDriveEvent, State.takeFrameEnd, State.setDrive, h.driving, h.whole,
    h.supplied, h.exchange, h.held]

/-- The state once the last frame of job `n` has ended, before the attempt that follows (R125, R130, R165). -/
def completed (s : State) (n : Nat) : State :=
  { s with
    drive := { s.drive.raised with framesDriven := s.drive.framesDriven + 1, granted := none }
    timers := s.timers.startLinger
    tiles := s.tiles.completeJob s.notices.jobClass n (s.cfg.param 17) s.sizeDiffers }

theorem completed_panelWork (s : State) (n : Nat) : PanelWork s (completed s n) := by
  constructor <;> first | rfl | exact completeJob_elapsed ..

theorem completed_sizeDiffers (s : State) (n : Nat) : (completed s n).sizeDiffers = s.sizeDiffers := by
  obtain ⟨wt, ht, -⟩ := completeJob_geometry s.tiles s.notices.jobClass n (s.cfg.param 17) s.sizeDiffers
  simp only [State.sizeDiffers, completed] at wt ht ⊢
  rw [wt, ht]

/-- The linger timer that the last frame's end starts is not due: P27 is at least 1 s (R68, R188). -/
theorem completed_linger (n : Nat) (timers : s.timersSound) (config : s.configSound) :
    (completed s n).timers.linger.due = false := by
  obtain ⟨-, -, -, ⟨-, reload⟩, -⟩ := timers
  have period : paramInRange 27 (s.cfg.param 27) = true := param_inRange config.1 (by omega) (by omega)
  have positive : s.timers.linger.reload ≠ 0 := by
    simp [paramInRange, plainRange] at period
    omega
  simp [completed, Timers.startLinger, positive]

/-- The last frame's end completes the granted job, and an attempt follows (R165). -/
theorem completeDrive_eq {n : Nat} (granted : s.drive.granted = some n) :
    State.completeDrive (s.setDrive { s.drive with framesDriven := s.drive.framesDriven + 1 }) =
      (completed s n).attempt := by
  simp only [State.completeDrive, State.setDrive, granted]
  rfl

/-- A last frame's end: the job completes and the booster stays up, whatever the attempt that follows grants. -/
theorem exec_frameEnd_last {n : Nat} (h : FrameRuns s) (waiting : s.attemptWaiting = false)
    (granted : s.drive.granted = some n) (last : s.drive.framesDriven + 1 = s.drive.frameCount)
    (size : s.sizeDiffers = false) (timers : s.timersSound) (config : s.configSound) :
    ∃ t, exec .frameEnd s = .next t ∧ GrantWork (completed s n) t ∧ StaysUp t := by
  have same : (completed s n).sizeDiffers = false := (completed_sizeDiffers s n).trans size
  have settled : (completed s n).attempt.attemptWaiting = false := (attempt_attemptWaiting _).trans waiting
  refine ⟨(completed s n).attempt, ?_, attempt_grantWork same, attempt_staysUp rfl rfl (completed_linger n timers config) same⟩
  rw [exec_frameEnd_of_runs h, if_pos last, completeDrive_eq granted, settle_of_not_waiting settled]

end FrameEnd

/-- Settles O28: the frame end from the completion tile by tile and the attempt behind it, formation from the jobs of its spans. -/
theorem frameEndCountsAndCompletes : Obligations.FrameEndCountsAndCompletes := by
  refine ⟨?frames, ?candidates, ?spans, ?formation⟩
  case frames =>
    intro s n j driving cut brownedOut exchange held waiting granted hj
    have runs : FrameRuns s := ⟨driving, cut, brownedOut, exchange, held⟩
    refine ⟨fun more => ?_, fun last size timers config => ?_⟩
    · rw [exec_frameEnd_of_runs runs, if_neg more, settle_of_not_waiting (by exact waiting)]
      rfl
    · obtain ⟨t, run, work, up, ben⟩ := exec_frameEnd_last runs waiting granted last size timers config
      have length := (completeJob_geometry s.tiles s.notices.jobClass n (s.cfg.param 17) s.sizeDiffers).2.2
      refine ⟨t, run, (completed_panelWork s n).trans work.toPanelWork, work.faults, up, ben,
        (congrArg List.length work.tiles).trans length, fun i a b ha hb => ?_⟩
      rw [work.tiles] at hb
      have tile := completeJob_tile hj s.notices.jobClass (s.cfg.param 17) s.sizeDiffers ha hb
      simpa only [spanPlace, Nat.zero_add] using tile
  case candidates =>
    intro row c
    simp only [mem_candidates, needsDriving_iff, Nat.zero_le, true_and, Nat.sub_zero]
  case spans => exact fun row c d cs => ⟨rfl, rfl, spansOf_cons_cons row c d cs⟩
  case formation =>
    intro tm band r hband formed old freed row spans
    refine ⟨fun waits => formRow_of_queuedClean band r waits, fun noClean => ?_⟩
    have queued : formed = TileMap.queueSpans band old r freed spans := formRow_of_no_queuedClean band r noClean
    have apart : spans.Pairwise fun a b => a.2 < b.1 := spansOf_apart row _ (candidates_rising row 0)
    rw [queued]
    refine ⟨spanJobs band old r freed spans, queueSpans_eq band old r spans freed, spanJobs_spans band old r spans freed,
      fun before j after h => ?_, (queueSpans_sameGlass band old r spans freed).length,
      fun i a b ha hb => queueSpans_tile band old r (spanJobs_disjoint (tm := freed) hband apart freed.wt) ha hb⟩
    obtain ⟨state, hrow, snapshot⟩ := spanJobs_state h
    obtain ⟨free, lowest⟩ := spanJobs_num h
    refine ⟨state, hrow, snapshot, free, lowest, spanJobs_mode h, spanJobs_cls (tm := freed) h, ?_⟩
    rw [spanJobs_enqueue h]
    exact spanEnqueue_spec old tm.elapsed j.first j.last

end Sys2Proof.Completion
end

section
/-! PROOFS. The usable energy (09 R138): the exact quotient rounded down, and its bound over the ranges of its inputs. -/

namespace Sys2Proof.UsableEnergy

open Sys2Proof.Machine

section Inputs

variable {c vf vs : Nat}

theorem usableEnergy_of_le (h : vs ≤ vf) : usableEnergy c vf vs = 0 := if_pos h

theorem usableEnergy_of_lt (h : vf < vs) : usableEnergy c vf vs = c * (vs ^ 2 - vf ^ 2) / 20000 := by
  simp only [usableEnergy, Nat.not_le.mpr h, if_false, Nat.pow_two]

/-- The top of the range: 1,000 dF from 1,800 mV to 5,500 mV (R138). -/
theorem usableEnergy_le (hc : c ≤ 1000) (hf : 1800 ≤ vf) (hs : vs ≤ 5500) : usableEnergy c vf vs ≤ 1350500 := by
  rcases Nat.lt_or_ge vf vs with above | below
  · have top : vs ^ 2 ≤ 5500 ^ 2 := Nat.pow_le_pow_left hs 2
    have floor : 1800 ^ 2 ≤ vf ^ 2 := Nat.pow_le_pow_left hf 2
    calc usableEnergy c vf vs = c * (vs ^ 2 - vf ^ 2) / 20000 := usableEnergy_of_lt above
      _ ≤ 1000 * (5500 ^ 2 - 1800 ^ 2) / 20000 :=
        Nat.div_le_div_right (Nat.mul_le_mul hc (Nat.le_trans (Nat.sub_le_sub_right top _) (Nat.sub_le_sub_left floor _)))
      _ = 1350500 := by decide
  · rw [usableEnergy_of_le below]
    exact Nat.zero_le _

end Inputs

/-- Settles O36: both inequalities say that the quotient is rounded down. -/
theorem usableEnergyIsExact : Obligations.UsableEnergyIsExact := by
  refine fun c vf vs => ⟨usableEnergy_of_le, fun above => ?_, usableEnergy_le⟩
  rw [usableEnergy_of_lt above]
  exact ⟨Nat.div_mul_le_self _ _, Nat.lt_mul_of_div_lt (Nat.lt_succ_self _) (by decide)⟩

end Sys2Proof.UsableEnergy
end

section
/-! PROOFS. FAULT_CLEAR (11 R175, 09 R144): what the taken request leaves, and the attempt that a cleared class at HOLD brings
beside the reply. -/

namespace Sys2Proof.FaultClear

open Sys2Proof.Machine

/-- The model's own schedule takes no part in a grant's work. -/
theorem schedule_grantWork (s : State) (l : List Bool) : GrantWork s { s with schedule := l } :=
  ⟨by constructor <;> rfl, rfl, rfl, rfl, rfl, rfl, rfl⟩

/-- A grant's work is the same work beside another link. -/
theorem grantWork_withLink {s t : State} (h : GrantWork s t) (l : Link) :
    GrantWork { s with link := l } { t with link := l } :=
  { h with toPanelWork := NoticeRequests.panelWork_withLink h.toPanelWork l }

section Request

variable {s : State} {r : Request} {rest : List Request}

/-- A reply and a grant's work, in either order: no fault is raised, so the reply is the same in both. -/
theorem eitherOrder_reply_grantWork (h : s.link.requests = r :: rest) (size : s.sizeDiffers = false) (e : Result)
    (data : List Byte) {work : State → State} (hwork : ∀ u, u.sizeDiffers = false → GrantWork u (work u)) :
    GrantWork { s with link := s.link.answered r rest e.code s.faults.newsFlag data }
      (s.eitherOrder (fun t => t.reply e data) work) := by
  obtain ⟨l, replyLast | replyFirst⟩ := eitherOrder_cases s (fun t => t.reply e data) work
  · have done := (schedule_grantWork s l).trans (hwork { s with schedule := l } size)
    rw [replyLast, reply_answered (done.link ▸ h), done.link,
      congrArg FaultUnit.newsFlag done.faults]
    exact grantWork_withLink done _
  · rw [replyFirst, reply_answered (s := { s with schedule := l }) h]
    exact (schedule_grantWork _ l).trans (hwork _ size)

/-- A reply beside which nothing else is done. -/
theorem eitherOrder_reply_alone (h : s.link.requests = r :: rest) (e : Result) (data : List Byte) :
    ∃ l, s.eitherOrder (fun t => t.reply e data) (fun t => t) =
      { s with schedule := l, link := s.link.answered r rest e.code s.faults.newsFlag data } := by
  obtain ⟨l, replyLast | replyFirst⟩ := eitherOrder_cases s (fun t => t.reply e data) fun t => t
  · exact ⟨l, replyLast.trans (reply_answered (s := { s with schedule := l }) h e data)⟩
  · exact ⟨l, replyFirst.trans (reply_answered (s := { s with schedule := l }) h e data)⟩

/-- A taken FAULT_CLEAR: the data is formed first, and a cleared class at HOLD notes an attempt (R144, R175). -/
theorem exec_faultClear_of_headIs (h : s.headIs r rest) (hk : r.kind = 0x11) (hp : r.payload = []) :
    exec .faultClear s = .next (State.settle (s.clearFaults.eitherOrder
      (fun t => t.reply .ok (b16 s.faults.latched.toNat ++ b16 s.faults.count))
      fun t => if s.holdLatched then t.noteAttempt else t)) := by
  have kind : r.kind.toNat = 0x11 := by rw [hk]; rfl
  have length : lengthAllowed 0x11 r.payload.length = true := by rw [hp]; rfl
  exact congrArg (fun t => Host.Outcome.next (State.settle t)) (take_work h kind length _)

end Request

/-- Settles O23: with no class at HOLD latched the reply stands alone, and an attempt beside it raises no fault. -/
theorem faultClearEmptiesTheUnit : Obligations.FaultClearEmptiesTheUnit := by
  intro s r rest head kind payload waiting data cleared
  have queued : s.clearFaults.link.requests = r :: rest := headIs_requests head
  refine ⟨_, exec_faultClear_of_headIs head kind payload, fun noHold => ?_, fun size => ?_⟩
  · obtain ⟨l, alone⟩ := eitherOrder_reply_alone queued .ok data
    refine ⟨l, ?_⟩
    simp only [noHold, Bool.false_eq_true, if_false]
    exact (congrArg State.settle alone).trans (settle_of_not_waiting waiting)
  · have work : GrantWork cleared _ := eitherOrder_reply_grantWork queued size .ok data
      (work := fun t => if s.holdLatched then t.noteAttempt else t) fun u hu => by
        split
        · exact noteAttempt_grantWork hu
        · exact .refl u
    have settled := work.trans (settle_grantWork (work.sizeDiffers.trans size))
    exact ⟨settled.toPanelWork, settled.faults⟩

end Sys2Proof.FaultClear
end

section
/-! PROOFS. The attempt that waits for the end of a step (09 R149, notes/assumptions/7.md): a command that may note an attempt
ends by taking it, and every other command leaves none where none waited. -/

namespace Sys2Proof.AttemptsTaken

open Sys2Proof.Machine

/-- No grant attempt waits. -/
def Idle (s : State) : Prop := s.attemptWaiting = false

theorem Idle.ite {c : Prop} [Decidable c] {t u : State} (h : c → Idle t) (k : ¬c → Idle u) : Idle (if c then t else u) := by
  split
  · exact h ‹_›
  · exact k ‹_›

/-- A command that may note an attempt ends by taking it (R149). -/
theorem settle_idle (s : State) : Idle s.settle := settle_attemptWaiting s

section Operations

variable {s : State}

/-! ### Replies, writes and the receiver -/

theorem reply_idle (h : Idle s) (e : Result) (d : List Byte) : Idle (s.reply e d) := by
  unfold State.reply
  split
  · exact h
  · exact h

theorem eitherOrder_idle (h : Idle s) {f g : State → State} (hf : ∀ u, Idle u → Idle (f u)) (hg : ∀ u, Idle u → Idle (g u)) :
    Idle (s.eitherOrder f g) := by
  obtain ⟨l, e | e⟩ := eitherOrder_cases s f g <;> rw [e]
  · exact hf _ (hg _ h)
  · exact hg _ (hf _ h)

theorem take_idle (h : Idle s) (kind : Nat) {f : List Byte → State → State} (hf : ∀ p, Idle (f p s)) :
    Idle (s.take kind f) := by
  obtain e | e | ⟨r, -, -, -, -, e⟩ := take_cases s kind f <;> rw [e]
  · exact h
  · exact reply_idle h _ _
  · exact hf _

theorem storeFail_idle (h : Idle s) (d : List Byte) : Idle (s.storeFail d) :=
  eitherOrder_idle h (fun _ hu => reply_idle hu _ _) fun _ hu => hu

theorem failConfig_idle (h : Idle s) (d : List Byte) : Idle (s.failConfig d) := storeFail_idle (by exact h) d

theorem failBegin_idle (h : Idle s) (i : BankId) : Idle (s.failBegin i) := storeFail_idle (by exact h) []

theorem touchUpload_idle (h : Idle s) : Idle s.touchUpload := .ite (fun _ => h) fun _ => h

theorem handFrame_idle (h : Idle s) (r : Request) : Idle (s.handFrame r) := .ite (fun _ => h) fun _ => h

theorem receiveByte_idle (h : Idle s) (b : Byte) : Idle (s.receiveByte b) := by
  unfold State.receiveByte
  split
  · exact .ite (fun _ => h) fun _ => h
  · exact .ite (fun _ => h) fun _ => .ite (fun _ => .ite (fun _ => handFrame_idle (by exact h) _) fun _ => h) fun _ => h

theorem receiveBytes_idle (l : List Byte) (h : Idle s) : Idle (s.receiveBytes l) := by
  induction l generalizing s with
  | nil => exact h
  | cons b l ih => exact ih (receiveByte_idle h b)

/-! ### The Panel Drive, whose own attempts are taken at once -/

theorem setDrive_idle (h : Idle s) (d : Drive) : Idle (s.setDrive d) := h

theorem startDrive_idle (h : Idle s) : Idle s.startDrive := (startDrive_attemptWaiting s).trans h

theorem attempt_idle (h : Idle s) : Idle s.attempt := (attempt_attemptWaiting s).trans h

theorem returnGranted_idle (h : Idle s) : Idle s.returnGranted := by
  unfold State.returnGranted
  split
  · exact h
  · exact h

/-- A failed rise returns the job, and takes the return's attempt at once (R158). -/
theorem failRise_idle (h : Idle s) : Idle s.failRise := attempt_idle (returnGranted_idle (setDrive_idle h s.drive.lowered))

theorem takeBrownout_idle (h : Idle s) : Idle s.takeBrownout := by
  unfold State.takeBrownout
  split
  · exact h
  · exact attempt_idle (returnGranted_idle h)
  · exact h
  · exact h

theorem takeSupplyRise_idle (h : Idle s) : Idle s.takeSupplyRise := .ite (fun _ => h) fun _ => h

/-- An edge of the comparator notes no attempt (R161). -/
theorem moveLevel_idle (h : Idle s) (above : Bool) : Idle (s.moveLevel above) := by
  refine .ite (fun _ => h) fun _ => .ite (fun _ => h) fun _ => ?_
  cases above with
  | false => exact takeBrownout_idle h
  | true => exact takeSupplyRise_idle h

/-! ### Start-up (R194) -/

theorem raiseAll_idle (h : Idle s) (l : List FaultCode) : Idle (s.raiseAll l) := (raiseAll_attemptWaiting l s).trans h

theorem judgeConserve_idle (h : Idle s) (vs : Nat) : Idle (s.judgeConserve vs) :=
  .ite (fun _ => .ite (fun _ => h) fun _ => .ite (fun _ => h) fun _ => h) fun _ => .ite (fun _ => h) fun _ => h

theorem sampleOwn_idle (h : Idle s) (mv c : Int) : Idle (s.sampleOwn mv c) := judgeConserve_idle (s := s.measure mv c) h _

theorem tempFault_idle (h : Idle s) (c : Int) : Idle (s.tempFault c) :=
  .ite (fun _ => h) fun _ => .ite (fun _ => h) fun _ => h

theorem loadConfig_idle (h : Idle s) : Idle s.loadConfig := .ite (fun _ => h) fun _ => h

theorem checkBank_idle (h : Idle s) (i : BankId) (f : FaultCode) : Idle (s.checkBank i f) := .ite (fun _ => h) fun _ => h

theorem firstSample_idle (h : Idle s) (mv c : Int) : Idle (s.firstSample mv c) := by
  have seen : Idle (s.seeVoltage mv) := .ite (fun _ => h) fun _ => moveLevel_idle h _
  have tested : Idle (((s.seeVoltage mv).sampleOwn mv c).tempFault c) := tempFault_idle (sampleOwn_idle seen mv c) c
  exact tested

theorem checkTables_idle (h : Idle s) : Idle s.checkTables := raiseAll_idle (by exact h) _

theorem firstImage_idle (h : Idle s) : Idle s.firstImage := (compose_attemptWaiting s allBands).trans h

/-- Start-up takes no attempt through the schedule: its hand-overs note none (R194). -/
theorem startUp_idle (h : Idle s) (br1 br0 above : Bool) (mv c : Int) : Idle (s.startUp br1 br0 above mv c) := by
  have loaded : Idle (State.loadConfig { s with
      link := { s.link with br1 := br1, br0 := br0 }
      drive := { s.drive with supplyAbove := above } }) := loadConfig_idle h
  have checked := checkTables_idle (checkBank_idle (checkBank_idle loaded .a .store102) .b .store103)
  exact setDrive_idle (firstImage_idle (firstSample_idle checked mv c)) _

/-- A reset of every block leaves no attempt (R193). -/
theorem dropped_idle (s : State) (phase : Phase) (cause : ResetCause) : Idle (s.dropped phase cause) := rfl

/-! ### The commands -/

/-- Whatever next state a command answers, no attempt waits in it. -/
def LeavesIdle (o : Host.Outcome State Fault Refusal) : Prop := ∀ t, o = .next t → Idle t

theorem LeavesIdle.next (h : Idle s) : LeavesIdle (.next s) := by
  rintro t ⟨⟩
  exact h

theorem execBadKind_idle (h : Idle s) : LeavesIdle (execBadKind s) := by
  refine .next ?_
  split
  · exact h
  · exact .ite (fun _ => reply_idle h _ _) fun _ => h

theorem execConfigSet_idle (h : Idle s) : LeavesIdle (execConfigSet s) :=
  .next <| take_idle h _ fun _ =>
    .ite (fun _ => .ite (fun _ => h) fun _ => reply_idle h _ _) fun _ => reply_idle h _ _

theorem execConfigWriteEnd_idle (h : Idle s) (verified : Bool) : LeavesIdle (execConfigWriteEnd verified s) := by
  refine .next ?_
  split
  · exact .ite (fun _ => settle_idle _) fun _ => failConfig_idle h _
  · exact h

theorem execConfigGet_idle (h : Idle s) : LeavesIdle (execConfigGet s) :=
  .next <| take_idle h _ fun _ =>
    .ite (fun _ => reply_idle h _ _) fun _ => .ite (fun _ => reply_idle h _ _) fun _ => reply_idle h _ _

theorem execWindowSet_idle (h : Idle s) : LeavesIdle (execWindowSet s) :=
  .next <| take_idle h _ fun _ =>
    .ite (fun _ => h) fun _ => .ite (fun _ => reply_idle h _ _) fun _ => reply_idle h _ _

theorem execWindowWriteEnd_idle (h : Idle s) (verified : Bool) : LeavesIdle (execWindowWriteEnd verified s) := by
  refine .next ?_
  split
  · exact .ite (fun _ => reply_idle (by exact h) _ _) fun _ => failConfig_idle h _
  · exact h

theorem execUploadBegin_idle (h : Idle s) : LeavesIdle (execUploadBegin s) := by
  have touched : Idle s.touchUpload := touchUpload_idle h
  exact .next <| take_idle h _ fun _ =>
    .ite (fun _ => reply_idle touched _ _) fun _ => .ite (fun _ => touched) fun _ => reply_idle touched _ _

theorem execBankEraseEnd_idle (h : Idle s) (verified : Bool) : LeavesIdle (execBankEraseEnd verified s) := by
  refine .next ?_
  split
  · exact .ite (fun _ => h) fun _ => failBegin_idle (by exact h) _
  · exact h

theorem execFillingHeaderWriteEnd_idle (h : Idle s) (verified : Bool) :
    LeavesIdle (execFillingHeaderWriteEnd verified s) := by
  refine .next ?_
  split
  · exact .ite (fun _ => reply_idle (by exact h) _ _) fun _ => failBegin_idle (by exact h) _
  · exact h

theorem execTripBlock_idle (h : Idle s) : LeavesIdle (execTripBlock s) := by
  have touched : Idle s.touchUpload := touchUpload_idle h
  refine .next <| take_idle h _ fun _ => ?_
  dsimp only
  split
  · exact reply_idle touched _ _
  · split
    · exact reply_idle touched _ _
    · exact touched

theorem execTripBlockWriteEnd_idle (h : Idle s) (verified : Bool) : LeavesIdle (execTripBlockWriteEnd verified s) := by
  refine .next ?_
  split
  · exact .ite (fun _ => reply_idle (by exact h) _ _) fun _ => storeFail_idle (by exact h) _
  · exact h

theorem execUploadCommit_idle (h : Idle s) : LeavesIdle (execUploadCommit s) := by
  have touched : Idle s.touchUpload := touchUpload_idle h
  refine .next <| take_idle h _ fun _ => ?_
  dsimp only
  split
  · exact reply_idle touched _ _
  · exact .ite (fun _ => touched) fun _ => reply_idle touched _ _

theorem execCommitHeaderWriteEnd_idle (h : Idle s) (verified : Bool) :
    LeavesIdle (execCommitHeaderWriteEnd verified s) := by
  refine .next ?_
  split
  · exact .ite (fun _ => settle_idle _) fun _ => storeFail_idle (by exact h) _
  · exact h

theorem execUploadAbort_idle (h : Idle s) : LeavesIdle (execUploadAbort s) :=
  .next <| take_idle h _ fun _ => .ite (fun _ => reply_idle (by exact h) _ _) fun _ => reply_idle h _ _

theorem execTextWriteEnd_idle (h : Idle s) (verified : Bool) : LeavesIdle (execTextWriteEnd verified s) := by
  refine .next ?_
  split
  · exact settle_idle _
  · exact h

theorem execGlyphWriteEnd_idle (h : Idle s) (verified : Bool) : LeavesIdle (execGlyphWriteEnd verified s) := by
  refine .next ?_
  split
  · exact settle_idle _
  · exact h

theorem execSecondEvent_idle (h : Idle s) : LeavesIdle (execSecondEvent s) := by
  refine .next ?_
  split
  · exact h
  · exact settle_idle _

theorem execRotation_idle (h : Idle s) : LeavesIdle (execRotation s) := by
  unfold execRotation
  split
  · dsimp only
    split
    · exact .next (settle_idle _)
    · exact .next h
  · exact .next h

theorem execRiseExpiry_idle (h : Idle s) (bgood : Bool) : LeavesIdle (execRiseExpiry bgood s) :=
  .next <| .ite (fun _ => .ite (fun _ => startDrive_idle (by exact h)) fun _ =>
    .ite (fun _ => h) fun _ => failRise_idle (by exact h)) fun _ => h

theorem execIdentityExchange_idle (h : Idle s) (answer : Option (Byte × Byte)) :
    LeavesIdle (execIdentityExchange answer s) := by
  refine .next ?_
  split
  · exact h
  · exact settle_idle _
  · exact settle_idle _

/-- Every command leaves no attempt waiting where none waited. -/
theorem exec_idle (c : Instr) (h : Idle s) : LeavesIdle (exec c s) := by
  cases c with
  | frameReceived => exact .next <| .ite (fun _ => receiveBytes_idle _ h) fun _ => h
  | frameGapTimeout => exact .next h
  | framingError => exact .next h
  | badKind => exact execBadKind_idle h
  | status => exact .next <| take_idle h _ fun _ => reply_idle (by exact h) _ _
  | timeSet => exact .next (settle_idle _)
  | configSet => exact execConfigSet_idle h
  | configWriteEnd => exact execConfigWriteEnd_idle h _
  | configGet => exact execConfigGet_idle h
  | windowSet => exact execWindowSet_idle h
  | windowWriteEnd => exact execWindowWriteEnd_idle h _
  | uploadBegin => exact execUploadBegin_idle h
  | bankEraseEnd => exact execBankEraseEnd_idle h _
  | fillingHeaderWriteEnd => exact execFillingHeaderWriteEnd_idle h _
  | tripBlock => exact execTripBlock_idle h
  | tripBlockWriteEnd => exact execTripBlockWriteEnd_idle h _
  | uploadCommit => exact execUploadCommit_idle h
  | commitHeaderWriteEnd => exact execCommitHeaderWriteEnd_idle h _
  | uploadAbort => exact execUploadAbort_idle h
  | uploadIdleTimeout => exact .next <| .ite (fun _ => h) fun _ => h
  | predict => exact .next (settle_idle _)
  | noticePost => exact .next (settle_idle _)
  | noticeWithdraw => exact .next (settle_idle _)
  | textPut => exact .next <| take_idle h _ fun _ => .ite (fun _ => h) fun _ => reply_idle h _ _
  | textWriteEnd => exact execTextWriteEnd_idle h _
  | glyphPut => exact .next <| take_idle h _ fun _ => .ite (fun _ => h) fun _ => reply_idle h _ _
  | glyphWriteEnd => exact execGlyphWriteEnd_idle h _
  | boardRead => exact .next <| take_idle h _ fun _ => .ite (fun _ => reply_idle h _ _) fun _ => reply_idle h _ _
  | faultRead => exact .next <| take_idle h _ fun _ => reply_idle h _ _
  | faultClear => exact .next (settle_idle _)
  | cleanNow => exact .next (settle_idle _)
  | reset => exact .next <| take_idle h _ fun _ => reply_idle h .ok []
  | requestReset => exact .next <| .ite (fun _ => settle_idle _) fun _ => h
  | secondEvent => exact execSecondEvent_idle h
  | sweep => exact .next <| .ite (fun _ => settle_idle _) fun _ => h
  | supplySample => exact .next <| .ite (fun _ => settle_idle _) fun _ => h
  | rotation => exact execRotation_idle h
  | riseExpiry => exact execRiseExpiry_idle h _
  | retryPauseExpiry => exact .next <| .ite (fun _ => h) fun _ => h
  | lingerExpiry => exact .next <| .ite (fun _ => settle_idle _) fun _ => h
  | frameEnd => exact .next <| .ite (fun _ => settle_idle _) fun _ => h
  | identityExchange => exact execIdentityExchange_idle h _
  | brownout => exact .next <| .ite (fun _ => settle_idle _) fun _ => h
  | supplyLevelRise => exact .next <| .ite (fun _ => settle_idle _) fun _ => h
  | powerOnReset => exact .next <| .ite (fun _ => dropped_idle _ _ _) fun _ => startUp_idle (dropped_idle _ _ _) _ _ _ _ _
  | lineResetAssert => exact .next <| .ite (fun _ => h) fun _ => dropped_idle s .held .line
  | lineResetRelease => exact .next <| .ite (fun _ => startUp_idle (dropped_idle _ _ _) _ _ _ _ _) fun _ => h
  | powerLoss => exact .next (dropped_idle _ _ _)
  | elapsedSecond => exact .next <| .ite (fun _ => h) fun _ => h
  | replySent => exact .next h

end Operations

/-- Settles O14, from what every command leaves. -/
theorem stepLeavesNoAttemptWaiting : Obligations.StepLeavesNoAttemptWaiting := by
  intro s t idle h
  unfold step at h
  split at h
  · cases h
    exact idle
  · rename_i c rest _
    exact exec_idle (s := s.setPending rest) c idle t h

end Sys2Proof.AttemptsTaken
end

section
/-! PROOFS. Parameters and windows in range (12 R188, R189, R194; 03 R55) and the estimate's bound (09 R138, R139): a configuration
record with one parameter or window replaced, what starts a write, and for each operation of the part one lemma that it keeps
both; with them, the same for every command. -/

namespace Sys2Proof.ConfigurationAndEstimate

open Sys2Proof.Machine

/-! ### The configuration record in range (R188, R189, R55) -/

/-- Every parameter of a record is in range when the value at each place is. -/
theorem paramsInRange_of_at {l : List (BitVec 32)} {id : Nat}
    (h : ∀ i v, l[i]? = some v → paramInRange (id + i) v.toNat = true) : paramsInRange id l = true := by
  induction l generalizing id with
  | nil => rfl
  | cons w l ih =>
    refine Bool.and_eq_true_iff.mpr ⟨h 0 w rfl, ih fun i v hv => ?_⟩
    rw [show id + 1 + i = id + (i + 1) by omega]
    exact h (i + 1) v hv

theorem setParam_inRange {c : ConfigRecord} (h : c.inRange = true) {id : Nat} {v : BitVec 32}
    (hv : paramInRange id v.toNat = true) : (c.setParam id v).inRange = true := by
  obtain ⟨params, windows⟩ := Bool.and_eq_true_iff.mp h
  have known : id ≠ 0 := by
    rintro rfl
    simp [paramInRange, plainRange] at hv
    omega
  refine Bool.and_eq_true_iff.mpr ⟨paramsInRange_of_at fun i x hx => ?_, windows⟩
  simp only [ConfigRecord.setParam, Vector.toList_setIfInBounds, List.getElem?_set] at hx
  split at hx
  · rename_i place
    split at hx
    · cases hx
      rwa [← place, show 1 + (id - 1) = id by omega]
    · cases hx
  · exact Completion.paramsInRange_at params hx

theorem setWindow_inRange {c : ConfigRecord} (h : c.inRange = true) (i : Nat) {w : Window} (hw : w.inRange = true) :
    (c.setWindow i w).inRange = true := by
  obtain ⟨params, windows⟩ := Bool.and_eq_true_iff.mp h
  refine Bool.and_eq_true_iff.mpr ⟨params, List.all_eq_true.mpr fun x hx => ?_⟩
  simp only [ConfigRecord.setWindow, Vector.toList_setIfInBounds] at hx
  obtain old | rfl := List.mem_or_eq_of_mem_set hx
  · exact List.all_eq_true.mp windows x old
  · exact hw

/-- Four bytes of a payload are a value of 32 bits (R183). -/
theorem u32_lt (p : List Byte) (i : Nat) : u32 p i < 2 ^ 32 := by
  have byte (k : Nat) : u8 p k < 256 := (p.getD k 0).isLt
  have h0 := byte i
  have h1 := byte (i + 1)
  have h2 := byte (i + 2)
  have h3 := byte (i + 3)
  simp only [u32, u24, u16]
  omega

/-- The settings that a WINDOW_SET payload gives assign no platform above 7 (R48, R55). -/
theorem windowOf_inRange (p : List Byte) : (windowOf p).inRange = true := by
  unfold windowOf Window.inRange
  dsimp only
  by_cases h : u8 p 0 ≤ 5 ∧ u8 p 6 ≤ 7
  · simp [h]
  · simp [h]

/-- The default configuration is in range (R57, R188). -/
theorem defaults_inRange : Config.defaults.inRange = true := by decide

/-- Start-up loads a record in range, whatever the stored item is (R194 step 1). -/
theorem loadConfig_inRange (x : Item ConfigRecord) : x.loadConfig.1.inRange = true := by
  cases x with
  | erased => exact defaults_inRange
  | bad => exact defaults_inRange
  | good c =>
    by_cases h : c.inRange = true
    · simp [Item.loadConfig, h]
    · simpa [Item.loadConfig, h] using defaults_inRange

/-- The estimate that a sample sets, from a C and a Vf in range and a saturated voltage (R136, R138, R188). -/
theorem measured_le {c : ConfigRecord} (h : c.inRange = true) (mv : Int) :
    usableEnergy (c.param 19) (c.param 20) (saturateVs mv) ≤ 1350500 := by
  have capacity : 1 ≤ c.param 19 ∧ c.param 19 ≤ 1000 := by
    simpa [paramInRange, plainRange] using Completion.param_inRange h (id := 19) (by omega) (by omega)
  have floor : 1800 ≤ c.param 20 ∧ c.param 20 ≤ 4000 := by
    simpa [paramInRange, plainRange] using Completion.param_inRange h (id := 20) (by omega) (by omega)
  have voltage : saturateVs mv ≤ 5500 := by
    unfold saturateVs
    omega
  exact UsableEnergy.usableEnergy_le capacity.2 floor.1 voltage

/-! ### What a piece of work keeps -/

/-- From `s` to `t` what is in force and what a write would put in force stay in range, and with them the estimate. -/
structure Kept (s t : State) : Prop where
  config : s.configSound → t.configSound
  estimate : s.configSound → s.energy.sound → t.energy.sound

theorem Kept.refl (s : State) : Kept s s := ⟨id, fun _ => id⟩

theorem Kept.trans {s t u : State} (h : Kept s t) (k : Kept t u) : Kept s u :=
  ⟨k.config ∘ h.config, fun c => k.estimate (h.config c) ∘ h.estimate c⟩

/-- Everything that both are read from. -/
def watched (s : State) : ConfigRecord × Option FlashWrite × Nat := (s.cfg, s.link.write, s.energy.estimate)

/-- Work that leaves the configuration alone, starts no write, and at most debits the estimate. -/
theorem Kept.of_frame {s t : State} (cfg : t.cfg = s.cfg) (write : ∀ w, t.link.write = some w → s.link.write = some w)
    (estimate : t.energy.estimate ≤ s.energy.estimate) : Kept s t := by
  refine ⟨?_, fun _ => Nat.le_trans estimate⟩
  rintro ⟨inForce, writing⟩
  exact ⟨cfg ▸ inForce, fun w h => writing w (write w h)⟩

/-- Work on other fields alone. -/
theorem Kept.of_same {s t : State} (h : watched t = watched s) : Kept s t := by
  simp only [watched, Prod.mk.injEq] at h
  obtain ⟨cfg, write, estimate⟩ := h
  exact .of_frame cfg (by rw [write]; exact fun _ => id) (Nat.le_of_eq estimate)

/-- The same work begun after a change of other fields alone. -/
theorem Kept.from {s u t : State} (h : Kept u t) (e : watched u = watched s) : Kept s t := (Kept.of_same e).trans h

theorem Kept.of_boardWork {s t : State} (h : BoardWork s t) : Kept s t := by
  rw [h.others]
  exact .of_same rfl

theorem Kept.ite {s t u : State} {c : Prop} [Decidable c] (h : c → Kept s t) (k : ¬c → Kept s u) :
    Kept s (if c then t else u) := by
  split
  · exact h ‹_›
  · exact k ‹_›

/-! ### Replies, faults, writes and the model's own choices -/

theorem raise_kept (s : State) (c : FaultCode) : Kept s (s.raise c) := .of_same rfl

theorem addNews_kept (s : State) (i : NewsItem) : Kept s (s.addNews i) := .of_same rfl

theorem raiseAll_kept (l : List FaultCode) (s : State) : Kept s (s.raiseAll l) := by
  induction l generalizing s with
  | nil => exact .refl s
  | cons c l ih => exact (raise_kept s c).trans (ih _)

/-- A reply ends the write in progress (R186). -/
theorem reply_kept (s : State) (e : Result) (d : List Byte) : Kept s (s.reply e d) := by
  unfold State.reply
  split
  · exact .refl s
  · exact .of_frame rfl nofun (Nat.le_refl _)

theorem eitherOrder_kept (s : State) {f g : State → State} (hf : ∀ u, Kept u (f u)) (hg : ∀ u, Kept u (g u)) :
    Kept s (s.eitherOrder f g) := by
  obtain ⟨l, e | e⟩ := eitherOrder_cases s f g <;> rw [e]
  · exact Kept.from ((hg _).trans (hf _)) rfl
  · exact Kept.from ((hf _).trans (hg _)) rfl

/-- A reply and other work, in either order. -/
theorem answered_kept (s : State) (e : Result) (data : State → List Byte) {work : State → State} (h : ∀ u, Kept u (work u)) :
    Kept s (s.eitherOrder (fun t => t.reply e (data t)) work) := eitherOrder_kept s (fun u => reply_kept u _ _) h

theorem take_kept {s : State} (kind : Nat) {f : List Byte → State → State} (h : ∀ p, Kept s (f p s)) :
    Kept s (s.take kind f) := by
  obtain e | e | ⟨r, -, -, -, -, e⟩ := take_cases s kind f <;> rw [e]
  · exact .refl s
  · exact reply_kept s _ _
  · exact h _

theorem storeFail_kept (s : State) (d : List Byte) : Kept s (s.storeFail d) := answered_kept s _ _ fun u => raise_kept u _

/-- A failed configuration write leaves everything in force (R56, R189). -/
theorem failConfig_kept (s : State) (d : List Byte) : Kept s (s.failConfig d) := Kept.from (storeFail_kept _ _) rfl

theorem failBegin_kept (s : State) (i : BankId) : Kept s (s.failBegin i) := Kept.from (storeFail_kept _ _) rfl

/-- A write that starts would put nothing out of range in force (R55, R189). -/
theorem startWrite_kept (s : State) {w : FlashWrite} (h : w.inRange) : Kept s (s.startWrite w) where
  config sound := ⟨sound.1, fun _ e => Option.some.inj e ▸ h⟩
  estimate _ := id

/-- A record in range is adopted (R56, R189). -/
theorem adoptConfig_kept {s : State} {c : ConfigRecord} (h : s.configSound → c.inRange = true) : Kept s (s.adoptConfig c) :=
  ⟨fun sound => ⟨h sound, sound.2⟩, fun _ => id⟩

/-! ### Grants, recompositions and cleans -/

theorem setDrive_kept (s : State) (d : Drive) : Kept s (s.setDrive d) := .of_same rfl

theorem choose_kept (s : State) : Kept s s.choose.2 := by
  unfold State.choose
  split
  · exact .refl s
  · exact .of_same rfl

theorem startDrive_kept (s : State) : Kept s s.startDrive := by
  unfold State.startDrive
  split
  · exact .refl s
  · exact .of_same rfl

theorem meetOff_kept (s : State) : Kept s s.meetOff := .ite (fun _ => .of_same rfl) fun _ => .refl s

theorem meetReady_kept (s : State) : Kept s s.meetReady := Kept.from (startDrive_kept _) rfl

theorem meetBooster_kept (s : State) : Kept s s.meetBooster := by
  obtain e | e | e | e | e := meetBooster_cases s <;> rw [e]
  · exact .refl s
  · exact meetOff_kept s
  · exact meetReady_kept s
  · exact (choose_kept s).trans (Kept.from (meetOff_kept _) rfl)
  · exact (choose_kept s).trans (meetReady_kept _)

theorem compose_kept (s : State) (b : Bands) : Kept s (s.compose b).1 := by
  have evaluated : Kept s (s.evaluated b) := .ite (fun _ => .of_same rfl) fun _ => .refl s
  exact evaluated.trans ((raiseAll_kept _ _).trans (.of_same rfl))

theorem formAll_kept (s : State) (rows : List Nat) : Kept s (s.formAll rows) := .of_same rfl

theorem applySize_kept (s : State) (n : Nat) : Kept s (s.applySize n) :=
  .ite (fun _ => Kept.from ((compose_kept _ _).trans (formAll_kept _ _)) rfl) fun _ => .refl s

/-- A grant debits the estimate, which never falls below 0 (R152). -/
theorem grant_kept (s : State) (j : Job) (band : Nat) : Kept s (s.grant j band) := by
  have debit (tm : TileMap) (d : Drive) : Kept s { s with
      energy := { s.energy with estimate := s.energy.estimate - s.cost j band }
      tiles := tm
      drive := d } := .of_frame rfl (fun _ => id) (Nat.sub_le _ _)
  exact (debit _ _).trans <| .ite (fun _ => (applySize_kept _ _).trans (setDrive_kept _ _)) fun _ => meetBooster_kept _

theorem attempt_kept (s : State) : Kept s s.attempt := by
  unfold State.attempt
  split
  · exact .refl s
  · exact grant_kept s _ _

theorem noteAttempt_kept (s : State) : Kept s s.noteAttempt :=
  .ite (fun _ => (choose_kept s).trans (attempt_kept _)) fun _ => (choose_kept s).trans (.of_same rfl)

/-- Every command that may bring a grant attempt ends so (R149). -/
theorem Kept.settle {s t : State} (h : Kept s t) : Kept s t.settle :=
  h.trans <| .ite (fun _ => Kept.from (attempt_kept _) rfl) fun _ => .refl t

theorem takeTiles_kept (s : State) (a : TileMap × Bool) : Kept s (s.takeTiles a) :=
  .ite (fun _ => Kept.from (noteAttempt_kept _) rfl) fun _ => .of_same rfl

theorem handOverAll_kept (l : List Nat) (s : State) : Kept s (s.handOverAll l) := by
  induction l generalizing s with
  | nil => exact .refl s
  | cons r l ih =>
    have one : Kept s (s.handOver r) := takeTiles_kept s _
    exact one.trans (ih _)

theorem recompose_kept (s : State) (b : Bands) : Kept s (s.recompose b) :=
  (compose_kept s b).trans (handOverAll_kept _ _)

theorem queueFullClean_kept (s : State) : Kept s s.queueFullClean :=
  .ite (fun _ => Kept.from (noteAttempt_kept _) rfl) fun _ => .refl s

theorem returnGranted_kept (s : State) : Kept s s.returnGranted := by
  unfold State.returnGranted
  split
  · exact .refl s
  · exact .of_same rfl

/-! ### The board, the banks and the Notice List -/

theorem rebuildBoard_kept (s : State) : Kept s s.rebuildBoard :=
  (Kept.of_boardWork (rebuild_boardWork s)).trans (recompose_kept _ _)

theorem selectBanks_kept (s : State) : Kept s s.selectBanks := by
  unfold State.selectBanks
  split
  · exact .refl s
  · exact .ite (fun _ => .of_same rfl) fun _ => .of_same rfl

theorem touchUpload_kept (s : State) : Kept s s.touchUpload := .ite (fun _ => .of_same rfl) fun _ => .refl s

theorem afterCommit_kept (s : State) (before : Option BankId) {answer : State → State} (h : ∀ u, Kept u (answer u)) :
    Kept s (s.afterCommit before answer) :=
  (selectBanks_kept s).trans <| .ite (fun _ => h _) fun _ =>
    (Kept.of_boardWork (rebuild_boardWork _)).trans (eitherOrder_kept _ h fun u => recompose_kept u _)

theorem noticeChange_kept (s : State) (l : List Notice) {answer : State → State} (h : ∀ u, Kept u (answer u)) :
    Kept s (s.noticeChange l answer) :=
  Kept.from (eitherOrder_kept _ h fun u => .ite (fun _ => recompose_kept u _) fun _ => .refl u) rfl

theorem expireNotices_kept (s : State) : Kept s s.expireNotices := by
  unfold State.expireNotices
  split
  · exact .refl s
  · exact .ite (fun _ => Kept.from (recompose_kept _ _) rfl) fun _ => .of_same rfl

theorem sweepBoard_kept (s : State) : Kept s s.sweepBoard := .ite (fun _ => .of_same rfl) fun _ => .refl s

/-! ### Events at the Panel Drive -/

theorem takeBrownout_kept (s : State) : Kept s s.takeBrownout := by
  unfold State.takeBrownout
  split
  · exact .of_same rfl
  · exact Kept.from ((returnGranted_kept _).trans (attempt_kept _)) rfl
  · exact .of_same rfl
  · exact .of_same rfl

theorem takeSupplyRise_kept (s : State) : Kept s s.takeSupplyRise := .ite (fun _ => .of_same rfl) fun _ => .of_same rfl

theorem takeLingerExpiry_kept (s : State) : Kept s s.takeLingerExpiry := .ite (fun _ => .of_same rfl) fun _ => .refl s

theorem endCutFrame_kept (s : State) : Kept s s.endCutFrame := by
  have ended : Kept s (if s.drive.brownedOut then
      s.setDrive (Drive.lowered { s.drive with cutFrame := false, brownedOut := false })
    else { s with
      drive := Drive.raised { s.drive with cutFrame := false, brownedOut := false }
      timers := s.timers.startLinger }) := .ite (fun _ => .of_same rfl) fun _ => .of_same rfl
  have raised := ended.trans (raise_kept _ .drive312)
  exact .ite (fun _ => raised.trans (meetBooster_kept _)) fun _ => raised

theorem abortDrive_kept (s : State) : Kept s s.abortDrive := by
  unfold State.abortDrive
  split
  · exact .refl s
  · exact Kept.from ((attempt_kept _).trans (raise_kept _ _)) rfl

theorem completeDrive_kept (s : State) : Kept s s.completeDrive := by
  unfold State.completeDrive
  split
  · exact .refl s
  · exact Kept.from (attempt_kept _) rfl

theorem takeFrameEnd_kept (s : State) : Kept s s.takeFrameEnd :=
  .ite (fun _ => .refl s) fun _ => .ite (fun _ => endCutFrame_kept s) fun _ =>
    .ite (fun _ => Kept.from (abortDrive_kept _) rfl) fun _ =>
      .ite (fun _ => Kept.from (completeDrive_kept _) rfl) fun _ => .of_same rfl

/-- A request reset ends the write in progress, and keeps the configuration and the estimate (R154, R192). -/
theorem resetBlocks_kept (s : State) : Kept s s.resetBlocks := by
  unfold State.resetBlocks State.resetDrive
  dsimp only
  split
  · exact .of_frame rfl nofun (Nat.le_refl _)
  · exact .of_frame rfl nofun (Nat.le_refl _)
  · exact .of_frame rfl nofun (Nat.le_refl _)
  · exact .of_frame rfl nofun (Nat.le_refl _)

theorem takeRequestReset_kept (s : State) : Kept s s.takeRequestReset :=
  (resetBlocks_kept s).trans <| (Kept.of_boardWork (rebuildFrom_boardWork _ _)).trans <|
    (takeTiles_kept _ _).trans <| (recompose_kept _ _).trans (recompose_kept _ _)

theorem driveEvent_kept (s : State) (e : DriveEvent) : Kept s (s.driveEvent e) := by
  refine .ite (fun _ => .of_same rfl) fun _ => ?_
  cases e with
  | brownout => exact takeBrownout_kept s
  | supplyRise => exact takeSupplyRise_kept s
  | lingerExpiry => exact takeLingerExpiry_kept s
  | frameEnd => exact takeFrameEnd_kept s
  | requestReset => exact takeRequestReset_kept s

theorem driveEvents_kept (l : List DriveEvent) (s : State) : Kept s (s.driveEvents l) := by
  induction l generalizing s with
  | nil => exact .refl s
  | cons e l ih => exact (driveEvent_kept s e).trans (ih _)

theorem releaseHeld_kept (s : State) : Kept s s.releaseHeld := Kept.from (driveEvents_kept _ _) rfl

theorem moveLevel_kept (s : State) (above : Bool) : Kept s (s.moveLevel above) :=
  .ite (fun _ => .refl s) fun _ => driveEvent_kept s _

theorem seeVoltage_kept (s : State) (mv : Int) : Kept s (s.seeVoltage mv) :=
  .ite (fun _ => .refl s) fun _ => moveLevel_kept s _

theorem failRise_kept (s : State) : Kept s s.failRise :=
  Kept.from ((returnGranted_kept _).trans <| (raise_kept _ _).trans (attempt_kept _)) rfl

/-! ### The identity exchange (R170, R171, R194) -/

theorem raiseIdentity_kept (s : State) (fault : Option FaultCode) : Kept s (s.raiseIdentity fault) := by
  cases fault with
  | none => exact .refl s
  | some f => exact raise_kept s f

theorem decideClean_kept (s : State) (fault : Option FaultCode) : Kept s (s.decideClean fault) :=
  .ite (fun _ => (returnGranted_kept s).trans (attempt_kept _)) fun _ =>
    .ite (fun _ => meetBooster_kept s) fun _ => .refl s

theorem takeHeldFirst_kept (s : State) : Kept s s.takeHeldFirst :=
  Kept.from ((driveEvents_kept _ _).trans (.of_same rfl)) rfl

theorem endCleanExchange_kept (s : State) (fault : Option FaultCode) : Kept s (s.endCleanExchange fault) :=
  (raiseIdentity_kept s fault).trans <| .ite (fun _ => decideClean_kept _ _) fun _ =>
    (choose_kept _).trans <| .ite (fun _ => (takeHeldFirst_kept _).trans (decideClean_kept _ _)) fun _ => decideClean_kept _ _

theorem endStartUp_kept (s : State) (fault : Option FaultCode) : Kept s (s.endStartUp fault) :=
  (raiseIdentity_kept s fault).trans <| Kept.from ((attempt_kept _).trans <| (raise_kept _ _).trans (addNews_kept _ _)) rfl

/-! ### Samples and start-up -/

theorem judgeConserve_kept (s : State) (vs : Nat) : Kept s (s.judgeConserve vs) :=
  .ite (fun _ => .ite (fun _ => .of_same rfl) fun _ => .ite (fun _ => .of_same rfl) fun _ => .refl s) fun _ =>
    .ite (fun _ => .of_same rfl) fun _ => .refl s

/-- A sample sets the estimate afresh, within its bound while the parameters are in range (R138, R139). -/
theorem measure_kept (s : State) (mv c : Int) : Kept s (s.measure mv c) := ⟨id, fun sound _ => measured_le sound.1 mv⟩

theorem sampleOwn_kept (s : State) (mv c : Int) : Kept s (s.sampleOwn mv c) :=
  (measure_kept s mv c).trans (judgeConserve_kept _ _)

theorem tempFault_kept (s : State) (c : Int) : Kept s (s.tempFault c) :=
  .ite (fun _ => raise_kept s _) fun _ => .ite (fun _ => raise_kept s _) fun _ => .refl s

theorem handConserve_kept (s : State) (was : Bool) : Kept s (s.handConserve was) :=
  .ite (fun _ => .refl s) fun _ =>
    .ite (fun _ => (recompose_kept s _).trans (noteAttempt_kept _)) fun _ => recompose_kept s _

theorem sample_kept (s : State) (mv c : Int) : Kept s (s.sample mv c) :=
  (sampleOwn_kept s mv c).trans <|
    (eitherOrder_kept _ (fun u => handConserve_kept u _) fun u => tempFault_kept u c).trans (noteAttempt_kept _)

/-- Start-up puts a record in range in force (R194 step 1). -/
theorem loadConfig_kept (s : State) : Kept s s.loadConfig := by
  have loaded (u : State) (cfg : u.cfg = s.flash.config.loadConfig.1) (link : u.link = s.link) (energy : u.energy = s.energy) :
      Kept s u := by
    refine ⟨?_, fun _ h => energy ▸ h⟩
    rintro ⟨-, writing⟩
    exact ⟨cfg ▸ loadConfig_inRange _, link ▸ writing⟩
  exact .ite (fun _ => loaded _ rfl rfl rfl) fun _ => loaded _ rfl rfl rfl

theorem checkBank_kept (s : State) (i : BankId) (f : FaultCode) : Kept s (s.checkBank i f) :=
  .ite (fun _ => .of_same rfl) fun _ => .of_same rfl

theorem checkTables_kept (s : State) : Kept s s.checkTables := Kept.from (raiseAll_kept _ _) rfl

theorem firstSample_kept (s : State) (mv c : Int) : Kept s (s.firstSample mv c) :=
  (seeVoltage_kept s mv).trans <| (sampleOwn_kept _ _ _).trans <| (tempFault_kept _ _).trans (.of_same rfl)

theorem firstImage_kept (s : State) : Kept s s.firstImage := (compose_kept s _).trans (formAll_kept _ _)

theorem startUp_kept (s : State) (br1 br0 above : Bool) (mv c : Int) : Kept s (s.startUp br1 br0 above mv c) :=
  Kept.from ((loadConfig_kept _).trans <| (checkBank_kept _ _ _).trans <| (checkBank_kept _ _ _).trans <|
    (checkTables_kept _).trans <| (firstSample_kept _ _ _).trans <| (firstImage_kept _).trans (setDrive_kept _ _)) rfl

/-- A reset of every block puts the defaults in force and the estimate at 0 (R153, R193, notes/assumptions/64.md). -/
theorem dropped_kept (s : State) (phase : Phase) (cause : ResetCause) : Kept s (s.dropped phase cause) :=
  ⟨fun _ => ⟨defaults_inRange, nofun⟩, fun _ _ => Nat.zero_le _⟩

/-! ### The clock, the owners of parameters and the receiver -/

theorem timeEffects_kept (s : State) (c : TimeCase) : Kept s (s.timeEffects c) := by
  cases c with
  | firstSet => exact (selectBanks_kept s).trans (rebuildBoard_kept _)
  | dateChange => exact (selectBanks_kept s).trans (rebuildBoard_kept _)
  | jump => exact (rebuildBoard_kept s).trans (raise_kept _ _)
  | adjust => exact .refl s

theorem rollover_kept (s : State) : Kept s s.rollover :=
  Kept.from ((selectBanks_kept _).trans <| (Kept.of_boardWork (refill_boardWork _)).trans <|
    (recompose_kept _ _).trans (addNews_kept _ _)) rfl

theorem minuteTick_kept (s : State) (minute : Nat) : Kept s (s.minuteTick minute) := by
  have clean (u : State) : Kept u (u.dailyClean minute) := .ite (fun _ => queueFullClean_kept u) fun _ => .refl u
  have light (u : State) : Kept u (u.frontlightMatch minute) :=
    .ite (fun _ => .of_same rfl) fun _ => .ite (fun _ => .of_same rfl) fun _ => .refl u
  exact (Kept.of_boardWork (refill_boardWork s)).trans <| (recompose_kept _ _).trans <| (clean _).trans (light _)

theorem secondEvent_kept (s : State) (t : ClockTime) : Kept s (s.secondEvent t) := by
  have rolled : Kept s (if t.second = 86399 then State.rollover { s with clock := ⟨some t.tick, 0⟩ }
      else { s with clock := ⟨some t.tick, 0⟩ }) :=
    .ite (fun _ => Kept.from (rollover_kept _) rfl) fun _ => .of_same rfl
  exact .ite (fun _ => rolled.trans (minuteTick_kept _ _)) fun _ => rolled

/-- Whatever a parameter's owner does with its new value (R188). -/
theorem handParam_kept (s : State) (id old : Nat) : Kept s (s.handParam id old) := by
  have sized : Kept s (if s.sizeDiffers then s.queueFullClean else s) := .ite (fun _ => queueFullClean_kept s) fun _ => .refl s
  unfold State.handParam
  split
  · exact sized
  · exact sized
  · exact recompose_kept s _
  · exact .ite (fun _ => .refl s) fun _ => Kept.from (recompose_kept _ _) rfl
  · exact .ite (fun _ => .refl s) fun _ => Kept.from (recompose_kept _ _) rfl
  · exact recompose_kept s _
  · exact recompose_kept s _
  · exact recompose_kept s _
  · exact recompose_kept s _
  · exact recompose_kept s _
  · exact recompose_kept s _
  · exact recompose_kept s _
  · exact .of_same rfl
  · exact takeTiles_kept s _
  · exact Kept.from (seeVoltage_kept s.fresh.2 _) rfl
  · exact .of_same rfl
  · exact .of_same rfl
  · exact .of_same rfl
  · exact .of_same rfl
  · exact .of_same rfl
  · exact .refl s

theorem handFrame_kept (s : State) (r : Request) : Kept s (s.handFrame r) := .ite (fun _ => .of_same rfl) fun _ => .of_same rfl

theorem receiveByte_kept (s : State) (b : Byte) : Kept s (s.receiveByte b) := by
  unfold State.receiveByte
  split
  · exact .ite (fun _ => .of_same rfl) fun _ => .refl s
  · exact .ite (fun _ => .of_same rfl) fun _ =>
      .ite (fun _ => .ite (fun _ => Kept.from (handFrame_kept _ _) rfl) fun _ => .of_same rfl) fun _ => .of_same rfl

theorem receiveBytes_kept (l : List Byte) (s : State) : Kept s (s.receiveBytes l) := by
  induction l generalizing s with
  | nil => exact .refl s
  | cons b l ih => exact (receiveByte_kept s b).trans (ih _)

/-! ### The commands -/

/-- Whatever next state a command answers, configuration and estimate are kept in range. -/
def Keeps (s : State) (o : Host.Outcome State Fault Refusal) : Prop := ∀ t, o = .next t → Kept s t

theorem Keeps.next {s t : State} (h : Kept s t) : Keeps s (.next t) := by
  rintro u ⟨⟩
  exact h

theorem execBadKind_keeps (s : State) : Keeps s (execBadKind s) := by
  refine .next ?_
  split
  · exact .refl s
  · exact .ite (fun _ => reply_kept s _ _) fun _ => .refl s

theorem execTimeSet_keeps (s : State) : Keeps s (execTimeSet s) :=
  .next <| Kept.settle <| take_kept _ fun _ =>
    .ite (fun _ => Kept.from ((timeEffects_kept _ _).trans (answered_kept _ _ _ fun u => recompose_kept u _)) rfl)
      fun _ => reply_kept s _ _

/-- A CONFIG_SET of a value out of range starts no write (R189). -/
theorem execConfigSet_keeps (s : State) : Keeps s (execConfigSet s) := by
  refine .next <| take_kept _ fun p => .ite (fun _ => .ite (fun tested => startWrite_kept s ?_) fun _ => reply_kept s _ _)
    fun _ => reply_kept s _ _
  rwa [FlashWrite.inRange, BitVec.toNat_ofNat, Nat.mod_eq_of_lt (u32_lt p 1)]

/-- A verified CONFIG_SET puts the value that was tested in force (R189). -/
theorem execConfigWriteEnd_keeps (verified : Bool) (s : State) : Keeps s (execConfigWriteEnd verified s) := by
  refine .next ?_
  split
  · rename_i writing
    have adopted := adoptConfig_kept fun sound => setParam_inRange sound.1 (sound.2 _ writing)
    exact .ite (fun _ => Kept.settle <| adopted.trans (answered_kept _ _ _ fun u => handParam_kept u _ _)) fun _ =>
      failConfig_kept s _
  · exact .refl s

theorem execConfigGet_keeps (s : State) : Keeps s (execConfigGet s) :=
  .next <| take_kept _ fun _ =>
    .ite (fun _ => reply_kept s _ _) fun _ => .ite (fun _ => reply_kept s _ _) fun _ => reply_kept s _ _

theorem execWindowSet_keeps (s : State) : Keeps s (execWindowSet s) :=
  .next <| take_kept _ fun p =>
    .ite (fun _ => startWrite_kept s (windowOf_inRange p)) fun _ =>
      .ite (fun _ => reply_kept s _ _) fun _ => reply_kept s _ _

/-- A verified WINDOW_SET puts the settings that were taken in force (R55, R56). -/
theorem execWindowWriteEnd_keeps (verified : Bool) (s : State) : Keeps s (execWindowWriteEnd verified s) := by
  refine .next ?_
  split
  · rename_i i w writing
    have adopted := adoptConfig_kept fun sound => setWindow_inRange sound.1 i (sound.2 _ writing)
    exact .ite (fun _ => adopted.trans (reply_kept _ _ _)) fun _ => failConfig_kept s _
  · exact .refl s

theorem execUploadBegin_keeps (s : State) : Keeps s (execUploadBegin s) :=
  .next <| take_kept _ fun _ => (touchUpload_kept s).trans <|
    .ite (fun _ => reply_kept _ _ _) fun _ =>
      .ite (fun _ => Kept.from (startWrite_kept _ trivial) rfl) fun _ => reply_kept _ _ _

theorem execBankEraseEnd_keeps (verified : Bool) (s : State) : Keeps s (execBankEraseEnd verified s) := by
  refine .next ?_
  split
  · exact .ite (fun _ => Kept.from (startWrite_kept _ trivial) rfl) fun _ => Kept.from (failBegin_kept _ _) rfl
  · exact .refl s

theorem execFillingHeaderWriteEnd_keeps (verified : Bool) (s : State) :
    Keeps s (execFillingHeaderWriteEnd verified s) := by
  refine .next ?_
  split
  · exact .ite (fun _ => Kept.from (reply_kept _ _ _) rfl) fun _ => Kept.from (failBegin_kept _ _) rfl
  · exact .refl s

theorem execTripBlock_keeps (s : State) : Keeps s (execTripBlock s) := by
  refine .next <| take_kept _ fun _ => (touchUpload_kept s).trans ?_
  dsimp only
  split
  · exact reply_kept _ _ _
  · split
    · exact reply_kept _ _ _
    · exact startWrite_kept _ trivial

theorem execTripBlockWriteEnd_keeps (verified : Bool) (s : State) : Keeps s (execTripBlockWriteEnd verified s) := by
  refine .next ?_
  split
  · exact .ite (fun _ => Kept.from (reply_kept _ _ _) rfl) fun _ => Kept.from (storeFail_kept _ _) rfl
  · exact .refl s

theorem execUploadCommit_keeps (s : State) : Keeps s (execUploadCommit s) := by
  refine .next <| take_kept _ fun _ => (touchUpload_kept s).trans ?_
  dsimp only
  split
  · exact reply_kept _ _ _
  · exact .ite (fun _ => startWrite_kept _ trivial) fun _ => reply_kept _ _ _

theorem execCommitHeaderWriteEnd_keeps (verified : Bool) (s : State) :
    Keeps s (execCommitHeaderWriteEnd verified s) := by
  refine .next ?_
  split
  · exact .ite (fun _ => Kept.settle <| Kept.from (afterCommit_kept _ _ fun u => reply_kept u _ _) rfl) fun _ =>
      Kept.from (storeFail_kept _ _) rfl
  · exact .refl s

theorem execUploadAbort_keeps (s : State) : Keeps s (execUploadAbort s) :=
  .next <| take_kept _ fun _ => .ite (fun _ => Kept.from (reply_kept _ _ _) rfl) fun _ => reply_kept s _ _

theorem execPredict_keeps (s : State) : Keeps s (execPredict s) :=
  .next <| Kept.settle <| take_kept _ fun _ =>
    .ite (fun _ => (Kept.of_boardWork (intakeAll_boardWork _ s)).trans <| answered_kept _ _ _ fun u =>
      .ite (fun _ => recompose_kept u _) fun _ => .refl u) fun _ => reply_kept s _ _

theorem execNoticePost_keeps (s : State) : Keeps s (execNoticePost s) := by
  refine .next <| Kept.settle <| take_kept _ fun _ => ?_
  split
  · exact reply_kept s _ _
  · exact noticeChange_kept s _ fun u => reply_kept u _ _

theorem execNoticeWithdraw_keeps (s : State) : Keeps s (execNoticeWithdraw s) :=
  .next <| Kept.settle <| take_kept _ fun _ =>
    .ite (fun _ => reply_kept s _ _) fun _ =>
      .ite (fun _ => noticeChange_kept s _ fun u => reply_kept u _ _) fun _ => reply_kept s _ _

theorem execTextPut_keeps (s : State) : Keeps s (execTextPut s) :=
  .next <| take_kept _ fun _ => .ite (fun _ => startWrite_kept s trivial) fun _ => reply_kept s _ _

theorem execTextWriteEnd_keeps (verified : Bool) (s : State) : Keeps s (execTextWriteEnd verified s) := by
  refine .next ?_
  split
  · exact Kept.settle <| .ite (fun _ => Kept.from (answered_kept _ _ _ fun u => recompose_kept u _) rfl) fun _ =>
      Kept.from (eitherOrder_kept _ (fun u => storeFail_kept u _) fun u => recompose_kept u _) rfl
  · exact .refl s

theorem execGlyphPut_keeps (s : State) : Keeps s (execGlyphPut s) :=
  .next <| take_kept _ fun _ => .ite (fun _ => startWrite_kept s trivial) fun _ => reply_kept s _ _

theorem execGlyphWriteEnd_keeps (verified : Bool) (s : State) : Keeps s (execGlyphWriteEnd verified s) := by
  refine .next ?_
  split
  · exact Kept.settle <| .ite (fun _ => Kept.from (answered_kept _ _ _ fun u => recompose_kept u _) rfl) fun _ =>
      Kept.from (eitherOrder_kept _ (fun u => storeFail_kept u _) fun u => recompose_kept u _) rfl
  · exact .refl s

theorem execBoardRead_keeps (s : State) : Keeps s (execBoardRead s) :=
  .next <| take_kept _ fun _ => .ite (fun _ => reply_kept s _ _) fun _ => reply_kept s _ _

theorem execFaultClear_keeps (s : State) : Keeps s (execFaultClear s) :=
  .next <| Kept.settle <| take_kept _ fun _ =>
    Kept.from (answered_kept _ _ _ fun u => .ite (fun _ => noteAttempt_kept u) fun _ => .refl u) rfl

theorem execCleanNow_keeps (s : State) : Keeps s (execCleanNow s) :=
  .next <| Kept.settle <| take_kept _ fun _ =>
    .ite (fun _ => Kept.from (answered_kept _ _ _ noteAttempt_kept) rfl) fun _ => reply_kept s _ _

theorem execReset_keeps (s : State) : Keeps s (execReset s) :=
  .next <| take_kept _ fun _ => (reply_kept s .ok []).trans (.of_same rfl)

theorem execSecondEvent_keeps (s : State) : Keeps s (execSecondEvent s) := by
  refine .next ?_
  split
  · exact .refl s
  · exact (secondEvent_kept s _).settle

theorem execSweep_keeps (s : State) : Keeps s (execSweep s) :=
  .next <| .ite (fun _ => Kept.settle <| Kept.from ((sweepBoard_kept _).trans <|
    (recompose_kept _ _).trans (expireNotices_kept _)) rfl) fun _ => .refl s

theorem execSupplySample_keeps (mv c : Int) (s : State) : Keeps s (execSupplySample mv c s) :=
  .next <| .ite (fun _ => Kept.settle <| Kept.from ((seeVoltage_kept _ _).trans (sample_kept _ _ _)) rfl)
    fun _ => .refl s

theorem execRotation_keeps (s : State) : Keeps s (execRotation s) := by
  unfold execRotation
  split
  · dsimp only
    split
    · exact .next <| Kept.settle <| Kept.from (recompose_kept _ _) rfl
    · exact .next (.of_same rfl)
  · exact .next (.refl s)

theorem execRiseExpiry_keeps (bgood : Bool) (s : State) : Keeps s (execRiseExpiry bgood s) :=
  .next <| .ite (fun _ => .ite (fun _ => Kept.from (startDrive_kept _) rfl) fun _ =>
    .ite (fun _ => .of_same rfl) fun _ => Kept.from (failRise_kept _) rfl) fun _ => .refl s

theorem execLingerExpiry_keeps (s : State) : Keeps s (execLingerExpiry s) :=
  .next <| .ite (fun _ => Kept.settle <| Kept.from (driveEvent_kept _ _) rfl) fun _ => .refl s

theorem execIdentityExchange_keeps (answer : Option (Byte × Byte)) (s : State) :
    Keeps s (execIdentityExchange answer s) := by
  refine .next ?_
  split
  · exact .refl s
  · exact Kept.settle <| Kept.from ((endStartUp_kept _ _).trans (releaseHeld_kept _)) rfl
  · exact Kept.settle <| Kept.from ((endCleanExchange_kept _ _).trans (releaseHeld_kept _)) rfl

theorem execPowerOnReset_keeps (br1 br0 above : Bool) (mv c : Int) (s : State) :
    Keeps s (execPowerOnReset br1 br0 above mv c s) :=
  .next <| .ite (fun _ => dropped_kept s _ _) fun _ => (dropped_kept s _ _).trans (startUp_kept _ _ _ _ _ _)

theorem execLineResetAssert_keeps (s : State) : Keeps s (execLineResetAssert s) :=
  .next <| .ite (fun _ => .of_same rfl) fun _ => (dropped_kept s .held .line).trans (.of_same rfl)

theorem execLineResetRelease_keeps (br1 br0 above : Bool) (mv c : Int) (s : State) :
    Keeps s (execLineResetRelease br1 br0 above mv c s) :=
  .next <| .ite (fun _ => Kept.from ((dropped_kept _ _ _).trans (startUp_kept _ _ _ _ _ _)) rfl) fun _ => .of_same rfl

/-- Every command keeps the configuration in range, and with it the estimate. -/
theorem exec_keeps (c : Instr) (s : State) : Keeps s (exec c s) := by
  cases c with
  | frameReceived => exact .next <| .ite (fun _ => receiveBytes_kept _ s) fun _ => .refl s
  | frameGapTimeout => exact .next (.of_same rfl)
  | framingError => exact .next (.of_same rfl)
  | badKind => exact execBadKind_keeps s
  | status => exact .next <| take_kept _ fun _ => Kept.from (reply_kept _ _ _) rfl
  | timeSet => exact execTimeSet_keeps s
  | configSet => exact execConfigSet_keeps s
  | configWriteEnd => exact execConfigWriteEnd_keeps _ s
  | configGet => exact execConfigGet_keeps s
  | windowSet => exact execWindowSet_keeps s
  | windowWriteEnd => exact execWindowWriteEnd_keeps _ s
  | uploadBegin => exact execUploadBegin_keeps s
  | bankEraseEnd => exact execBankEraseEnd_keeps _ s
  | fillingHeaderWriteEnd => exact execFillingHeaderWriteEnd_keeps _ s
  | tripBlock => exact execTripBlock_keeps s
  | tripBlockWriteEnd => exact execTripBlockWriteEnd_keeps _ s
  | uploadCommit => exact execUploadCommit_keeps s
  | commitHeaderWriteEnd => exact execCommitHeaderWriteEnd_keeps _ s
  | uploadAbort => exact execUploadAbort_keeps s
  | uploadIdleTimeout => exact .next <| .ite (fun _ => .of_same rfl) fun _ => .refl s
  | predict => exact execPredict_keeps s
  | noticePost => exact execNoticePost_keeps s
  | noticeWithdraw => exact execNoticeWithdraw_keeps s
  | textPut => exact execTextPut_keeps s
  | textWriteEnd => exact execTextWriteEnd_keeps _ s
  | glyphPut => exact execGlyphPut_keeps s
  | glyphWriteEnd => exact execGlyphWriteEnd_keeps _ s
  | boardRead => exact execBoardRead_keeps s
  | faultRead => exact .next <| take_kept _ fun _ => reply_kept s _ _
  | faultClear => exact execFaultClear_keeps s
  | cleanNow => exact execCleanNow_keeps s
  | reset => exact execReset_keeps s
  | requestReset => exact .next <| .ite (fun _ => (driveEvent_kept s _).settle) fun _ => .refl s
  | secondEvent => exact execSecondEvent_keeps s
  | sweep => exact execSweep_keeps s
  | supplySample => exact execSupplySample_keeps _ _ s
  | rotation => exact execRotation_keeps s
  | riseExpiry => exact execRiseExpiry_keeps _ s
  | retryPauseExpiry => exact .next <| .ite (fun _ => .of_same rfl) fun _ => .refl s
  | lingerExpiry => exact execLingerExpiry_keeps s
  | frameEnd => exact .next <| .ite (fun _ => (driveEvent_kept s _).settle) fun _ => .refl s
  | identityExchange => exact execIdentityExchange_keeps _ s
  | brownout => exact .next <| .ite (fun _ => (moveLevel_kept s _).settle) fun _ => .refl s
  | supplyLevelRise => exact .next <| .ite (fun _ => (moveLevel_kept s _).settle) fun _ => .refl s
  | powerOnReset => exact execPowerOnReset_keeps _ _ _ _ _ s
  | lineResetAssert => exact execLineResetAssert_keeps s
  | lineResetRelease => exact execLineResetRelease_keeps _ _ _ _ _ s
  | powerLoss => exact .next (dropped_kept s _ _)
  | elapsedSecond => exact .next <| .ite (fun _ => .of_same rfl) fun _ => .refl s
  | replySent => exact .next (.of_same rfl)

/-- Settles O11, from what every command keeps. -/
theorem stepKeepsConfigurationAndEstimateInRange : Obligations.StepKeepsConfigurationAndEstimateInRange := by
  intro s t sound h
  have kept : Kept s t := by
    unfold step at h
    split at h
    · cases h
      exact .refl s
    · rename_i c rest _
      exact Kept.from (exec_keeps c (s.setPending rest) t h) rfl
  exact ⟨kept.config sound, kept.estimate sound⟩

end Sys2Proof.ConfigurationAndEstimate
end

section
/-! PROOFS. The expiry of the retry pause (10 R159; 11 R179): the rise begins again, and STATUS reports the booster throughout. -/

namespace Sys2Proof.RetryPause

open Sys2Proof.Machine

/-- STATUS reports the booster state in the byte at offset 21 (R179). -/
theorem statusData_booster (s : State) : s.statusData.getD 21 0 = BitVec.ofNat 8 s.drive.booster.number := by
  have clock : ∃ b0 b1 b2 b3 b4 b5, s.clock.statusBytes = [b0, b1, b2, b3, b4, b5] := by
    unfold Clock.statusBytes
    split
    · exact ⟨_, _, _, _, _, _, rfl⟩
    · exact ⟨_, _, _, _, _, _, rfl⟩
  obtain ⟨b0, b1, b2, b3, b4, b5, clock⟩ := clock
  rw [State.statusData, clock]
  rfl

/-- In RISING it reports 1 (R179). -/
theorem statusData_of_rising {s : State} (h : s.drive.booster = .rising) : s.statusData.getD 21 0 = 1 := by
  rw [statusData_booster, h]
  rfl

/-- A retry pause that runs in RISING ends with BEN high and the rise timer started (R159). -/
theorem exec_retryPauseExpiry_of_rising {s : State} (running : s.timers.retry.running = true)
    (rising : s.drive.booster = .rising) :
    exec .retryPauseExpiry s =
      .next (State.startRise { s with timers := { s.timers with retry := s.timers.retry.expire } }) := by
  simp [exec, execRetryPauseExpiry, running, rising]

/-- The expiry of a one-shot timer stops it (R67). -/
theorem expire_of_oneShot {t : Timer} (h : t.mode = .oneShot) : t.expire = t.stop := by
  rw [Timer.expire, h]

/-- Settles O26: the retry pause timer is a one-shot, and the rise timer's period is P25. -/
theorem retryPauseRaisesTheBoosterAgain : Obligations.RetryPauseRaisesTheBoosterAgain := by
  intro s running rising timers
  obtain ⟨-, -, -, -, -, ⟨-, period⟩, ⟨pauseMode, -⟩⟩ := timers
  refine ⟨_, exec_retryPauseExpiry_of_rising running rising, ?_, rfl, statusData_of_rising rising, statusData_of_rising rfl⟩
  simp only [State.startRise, Timer.start, expire_of_oneShot pauseMode, period, rising]

end Sys2Proof.RetryPause
end

section
/-! PROOFS. The end of a cut frame (10 R157, R164, R167): the state it leaves the booster in, and the grant that waited for it. -/

namespace Sys2Proof.CutFrame

open Sys2Proof.Machine

/-- The image sent holds the pixels of the span's tiles, place by place (R164). -/
theorem imageOf_eq (j : Job) (wt start : Nat) (px : List (Option TilePixels)) :
    imageOf j wt start px =
      ((List.range px.length).filter fun i => j.covers wt (start + i)).map fun i => (px.getD i none).getD 0 := by
  induction px generalizing start with
  | nil => rfl
  | cons p ps ih =>
    have tail : (((List.range ps.length).map Nat.succ).filter fun i => j.covers wt (start + i)).map
        (fun i => ((p :: ps).getD i none).getD 0) = imageOf j wt (start + 1) ps := by
      rw [ih, List.filter_map, List.map_map]
      simp only [Function.comp_def, Nat.succ_eq_add_one, List.getD_cons_succ, Nat.add_assoc, Nat.add_comm 1]
    rw [imageOf, List.length_cons, List.range_succ_eq_map, List.filter_cons, ← tail]
    by_cases h : j.covers wt start = true
    · rw [if_pos h, if_pos (by exact h), List.map_cons]
      rfl
    · rw [if_neg h, if_neg (by exact h)]

/-- The number by which a job is found is its own (R118). -/
theorem num_of_job {tm : TileMap} {n : Nat} {j : Job} (h : tm.job n = some j) : j.num = n := by
  simpa using List.find?_some h

/-- The drive of the granted job starts with the pixels of its span (R130, R164). -/
theorem startDrive_eq {s : State} {n : Nat} {j : Job} (granted : s.drive.granted = some n) (found : s.tiles.job n = some j) :
    s.startDrive = { s with
      drive := { s.drive with
        booster := .driving
        framesDriven := 0
        brownedOut := false
        sent := some ⟨j.mode, j.row, j.first, j.last,
          ((List.range s.composer.pixels.length).filter (j.covers s.tiles.wt)).map fun i =>
            (s.composer.pixels.getD i none).getD 0⟩ }
      tiles := s.tiles.startJob n } := by
  simp only [State.startDrive, granted, Option.bind_some, found, num_of_job found, imageOf_eq, Nat.zero_add]

/-- The linger timer is not due when it starts: P27 is at least 1 s (R68, R188). -/
theorem linger_not_due {s : State} (timers : s.timersSound) (config : s.configSound) : s.timers.linger.start.due = false :=
  Completion.completed_linger 0 timers config

section FrameEnd

variable {s : State}

/-- A cut frame is being driven, and nothing keeps its end from the Panel Drive (R167, R170). -/
structure CutFrameRuns (s : State) : Prop where
  driving : s.drive.booster = .driving
  cut : s.drive.cutFrame = true
  exchange : s.drive.exchange = none
  held : s.drive.held = []
  waiting : s.attemptWaiting = false

/-- The state that the end of a cut frame leaves, before a grant that waits for it is taken (R167). -/
def cutFrameEnded (s : State) : State :=
  let d := { s.drive with cutFrame := false, brownedOut := false }
  State.raise (if s.drive.brownedOut then s.setDrive d.lowered
    else { s with drive := d.raised, timers := s.timers.startLinger }) .drive312

/-- After a brownout it leaves the booster in OFF (R166, notes/assumptions/26.md). -/
theorem cutFrameEnded_of_brownout (h : s.drive.brownedOut = true) :
    cutFrameEnded s = { s with
      drive := { s.drive with cutFrame := false, brownedOut := false, booster := .off, ben := false }
      faults := s.faults.raise .drive312 s.clock.stamp } := by
  simp only [cutFrameEnded, h, if_true]
  rfl

/-- Otherwise in READY, with the linger timer started (R167). -/
theorem cutFrameEnded_of_supplied (h : s.drive.brownedOut = false) :
    cutFrameEnded s = { s with
      drive := { s.drive with cutFrame := false, brownedOut := false, booster := .ready, ben := true }
      timers := { s.timers with linger := s.timers.linger.start }
      faults := s.faults.raise .drive312 s.clock.stamp } := by
  simp only [cutFrameEnded, h, Bool.false_eq_true, if_false]
  rfl

theorem cutFrameEnded_attemptWaiting (s : State) : (cutFrameEnded s).attemptWaiting = s.attemptWaiting := by
  unfold cutFrameEnded
  dsimp only
  split
  · rfl
  · rfl

theorem cutFrameEnded_granted (s : State) : (cutFrameEnded s).drive.granted = s.drive.granted := by
  unfold cutFrameEnded
  dsimp only
  split
  · rfl
  · rfl

/-- The frame end of a cut frame takes the grant that waits for it, if one does (R167). -/
theorem exec_frameEnd_of_cut (h : CutFrameRuns s) :
    exec .frameEnd s =
      .next (if s.drive.granted.isSome then (cutFrameEnded s).meetBooster else cutFrameEnded s) := by
  have ends : exec .frameEnd s = .next (State.settle s.endCutFrame) := by
    simp [exec, execFrameEnd, State.driveEvent, State.takeDriveEvent, State.takeFrameEnd, h.driving, h.cut, h.exchange, h.held]
  have taken : s.endCutFrame = if s.drive.granted.isSome then (cutFrameEnded s).meetBooster else cutFrameEnded s := by
    rw [← cutFrameEnded_granted s]
    rfl
  have settled : s.endCutFrame.attemptWaiting = false := by
    rw [taken]
    split
    · rw [meetBooster_attemptWaiting, cutFrameEnded_attemptWaiting, h.waiting]
    · rw [cutFrameEnded_attemptWaiting, h.waiting]
  rw [ends, settle_of_not_waiting settled, taken]

theorem exec_frameEnd_of_cut_granted (h : CutFrameRuns s) (granted : s.drive.granted ≠ none) :
    exec .frameEnd s = .next (cutFrameEnded s).meetBooster := by
  rw [exec_frameEnd_of_cut h, if_pos (Option.isSome_iff_ne_none.mpr granted)]

theorem exec_frameEnd_of_cut_alone (h : CutFrameRuns s) (granted : s.drive.granted = none) :
    exec .frameEnd s = .next (cutFrameEnded s) := by
  rw [exec_frameEnd_of_cut h, granted]
  rfl

/-- After a brownout the grant meets the booster in OFF (R157). -/
theorem meetBooster_of_brownout (h : s.drive.brownedOut = true) :
    (cutFrameEnded s).meetBooster = if s.drive.supplyAbove then (cutFrameEnded s).startRise else cutFrameEnded s := by
  rw [cutFrameEnded_of_brownout h]
  rfl

end FrameEnd

/-- Settles O30: what a cut frame's end leaves, and what the grant that waits for it makes of each booster state. -/
theorem cutFrameEndsWithDrive312 : Obligations.CutFrameEndsWithDrive312 := by
  intro s driving cut exchange held waiting faults drive
  have runs : CutFrameRuns s := ⟨driving, cut, exchange, held, waiting⟩
  refine ⟨fun alone => ⟨fun supplied => ?_, fun brownout => ?_⟩, fun granted => ⟨?_, fun brownout below => ?_,
    fun brownout above => ?_⟩⟩
  · rw [exec_frameEnd_of_cut_alone runs alone, cutFrameEnded_of_supplied supplied]
  · rw [exec_frameEnd_of_cut_alone runs alone, cutFrameEnded_of_brownout brownout]
  · intro n j hn hj supplied timers config span
    rw [exec_frameEnd_of_cut_granted runs granted, cutFrameEnded_of_supplied supplied,
      meetBooster_ready rfl (linger_not_due timers config), State.meetReady, startDrive_eq (by exact hn) (by exact hj)]
    rfl
  · rw [exec_frameEnd_of_cut_granted runs granted, meetBooster_of_brownout brownout, if_neg (by simp [below]),
      cutFrameEnded_of_brownout brownout]
  · rw [exec_frameEnd_of_cut_granted runs granted, meetBooster_of_brownout brownout, if_pos above,
      cutFrameEnded_of_brownout brownout]
    rfl

end Sys2Proof.CutFrame
end

section
/-! PROOFS. The end of start-up (12 R194; 10 R170): its full clean stays in the queue through the attempt that follows, the faults of
the identity exchange and of the clock stay latched, and no event waits. -/

namespace Sys2Proof.StartUpEnd

open Sys2Proof.Machine Sys2Proof.Formation

/-! ### A full clean in the queue (R127) -/

theorem hasClean_iff (tm : TileMap) : tm.hasClean = true ↔ ∃ j ∈ tm.jobs, j.cls = .clean := by
  simp [TileMap.hasClean]

/-- The queue's numbers and classes say whether a full clean is in it. -/
theorem hasClean_of_numCls {a b : TileMap}
    (h : b.jobs.map (fun j => (j.num, j.cls)) = a.jobs.map (fun j => (j.num, j.cls))) (clean : a.hasClean = true) :
    b.hasClean = true := by
  obtain ⟨j, hj, cls⟩ := (hasClean_iff a).mp clean
  have listed : (j.num, j.cls) ∈ b.jobs.map (fun j => (j.num, j.cls)) := h ▸ List.mem_map_of_mem hj
  obtain ⟨k, hk, same⟩ := List.mem_map.mp listed
  exact (hasClean_iff b).mpr ⟨k, hk, (Prod.mk.inj same).2.trans cls⟩

/-- Formation takes apart queued jobs of its row alone, and no full clean (R120, R122). -/
theorem formRow_hasClean {tm : TileMap} (h : tm.hasClean = true) (band : JobClass) (r : Nat) :
    (tm.formRow band r).1.hasClean = true := by
  by_cases waits : tm.queuedClean = none
  · obtain ⟨j, hj, cls⟩ := (hasClean_iff tm).mp h
    have stays : j ∈ (tm.removeJobs (Job.waitsInRow r)).jobs := by simp [TileMap.removeJobs, Job.waitsInRow, hj, cls]
    rw [formRow_of_no_queuedClean band r waits, queueSpans_eq, hasClean_iff]
    exact ⟨j, List.mem_append_left _ stays, cls⟩
  · rw [formRow_of_queuedClean band r waits]
    exact h

theorem formRows_hasClean {tm : TileMap} (h : tm.hasClean = true) (band : JobClass) (l : List Nat) :
    (TileMap.formRows band tm l).1.hasClean = true := by
  induction l generalizing tm with
  | nil => exact h
  | cons r l ih => exact ih (formRow_hasClean h band r)

/-- A recomposition up to its hand-overs leaves the queue alone (R87, R91). -/
theorem compose_jobs (s : State) (b : Bands) : (s.compose b).1.tiles.jobs = s.tiles.jobs := by
  have evaluated : (s.evaluated b).tiles.jobs = s.tiles.jobs := by
    unfold State.evaluated
    split
    · rfl
    · rfl
  simp only [State.compose, State.keepWritten, raiseAll_tiles, evaluated]

/-- A clean that applies a size stays in the queue (R129). -/
theorem applySize_hasClean {s : State} (h : s.tiles.hasClean = true) (n : Nat) : (s.applySize n).tiles.hasClean = true := by
  unfold State.applySize
  split
  · refine formRows_hasClean ?_ _ _
    rw [TileMap.hasClean, compose_jobs]
    exact hasClean_of_numCls (changeJob_numCls s.tiles n _ fun _ => ⟨rfl, rfl⟩) h
  · exact h

/-- A grant attempt removes no full clean (R149, R152). -/
theorem attempt_hasClean {s : State} (h : s.tiles.hasClean = true) : s.attempt.tiles.hasClean = true := by
  have granted (n : Nat) : (s.tiles.changeJob n fun k => { k with state := .granted }).hasClean = true :=
    hasClean_of_numCls (changeJob_numCls s.tiles n _ fun _ => ⟨rfl, rfl⟩) h
  unfold State.attempt
  split
  · exact h
  · unfold State.grant
    dsimp only
    split
    · exact applySize_hasClean (granted _) _
    · exact hasClean_of_numCls (meetBooster_grantWork _).jobs (granted _)

/-! ### Latched classes and the news set (R174, R177) -/

theorem isLatched_iff (f : FaultUnit) (c : FaultClass) : f.isLatched c = true ↔ f.latched &&& c.bit ≠ 0 := by
  simp [FaultUnit.isLatched]

/-- A raise latches its class (R174). -/
theorem raise_latches (f : FaultUnit) (c : FaultCode) (stamp : Option Stamp) : (f.raise c stamp).isLatched c.cls = true := by
  rw [isLatched_iff]
  have bit : c.cls.bit ≠ 0 := by cases c <;> decide
  intro e
  rw [FaultUnit.raise, BitVec.and_or_distrib_right, BitVec.and_self] at e
  exact bit (BitVec.or_eq_zero_iff.mp e).2

/-- A raise unlatches no class (R174). -/
theorem raise_keeps_latched {f : FaultUnit} {c : FaultClass} (h : f.isLatched c = true) (code : FaultCode)
    (stamp : Option Stamp) : (f.raise code stamp).isLatched c = true := by
  rw [isLatched_iff] at h ⊢
  intro e
  rw [FaultUnit.raise, BitVec.and_or_distrib_right] at e
  exact h (BitVec.or_eq_zero_iff.mp e).1

/-- Nor does work that raises CONTENT faults alone. -/
theorem contentWork_keeps_latched {s t : State} (work : ContentWork s t) {c : FaultClass} (h : s.faults.isLatched c = true) :
    t.faults.isLatched c = true := by
  obtain ⟨-, codes, -, raised⟩ := work
  rw [raised]
  clear raised
  generalize s.faults = f at h
  induction codes generalizing f with
  | nil => exact h
  | cons code codes ih => exact ih _ (raise_keeps_latched h code _)

/-- An item of news unlatches no class (R177). -/
theorem addNews_isLatched (s : State) (i : NewsItem) (c : FaultClass) :
    (s.addNews i).faults.isLatched c = s.faults.isLatched c := rfl

/-- An item that joins the news set is in it (R177). -/
theorem addNews_news (s : State) (i : NewsItem) : (s.addNews i).faults.news &&& i.bit ≠ 0 := by
  have bit : i.bit ≠ 0 := by cases i <;> decide
  intro e
  rw [State.addNews, BitVec.and_or_distrib_right, BitVec.and_self] at e
  exact bit (BitVec.or_eq_zero_iff.mp e).2

/-- ATTN is high while any item is in the news set (R178). -/
theorem attn_of_news {s : State} {b : BitVec 16} (h : s.faults.news &&& b ≠ 0) : s.attn = true := by
  have some_item : s.faults.news ≠ 0 := fun e => h (by rw [e]; exact BitVec.zero_and)
  simpa [State.attn, FaultUnit.newsFlag] using some_item

/-! ### The identity exchange of start-up (R170, R194) -/

theorem raiseIdentity_panelWork (s : State) (fault : Option FaultCode) : PanelWork s (s.raiseIdentity fault) := by
  cases fault with
  | none => exact .refl s
  | some f => exact raise_panelWork s f

/-- An answer that does not name the applied geometry raises a PANEL fault (R170). -/
theorem identityFault_of_misfit {tm : TileMap} {answer : Option (Byte × Byte)}
    (h : ¬∃ w h : Byte, answer = some (w, h) ∧ w.toNat = tm.wt ∧ h.toNat = tm.ht) :
    ∃ f, tm.identityFault answer = some f ∧ f.cls = .panel := by
  match answer with
  | none => exact ⟨.panel202, rfl, rfl⟩
  | some (w, k) =>
    have misfit : ¬(w.toNat = tm.wt ∧ k.toNat = tm.ht) := fun fits => h ⟨w, k, rfl, fits⟩
    exact ⟨.panel201, if_neg misfit, rfl⟩

/-- The state in which step 6 of start-up makes its grant attempt: running, with the full clean queued (R194). -/
def cleanQueued (s : State) (fault : Option FaultCode) : State :=
  { s.raiseIdentity fault with
    phase := .running
    tiles := (s.raiseIdentity fault).tiles.queueClean.1 }

section EndStartUp

variable (s : State) (fault : Option FaultCode)

theorem endStartUp_eq :
    s.endStartUp fault = State.addNews (State.raise (cleanQueued s fault).attempt .clock701) .startUpComplete := rfl

theorem endStartUp_phase : (s.endStartUp fault).phase = .running := by
  rw [endStartUp_eq, State.addNews_phase, State.raise_phase, (attempt_panelWork _).phase]
  rfl

theorem endStartUp_link : (s.endStartUp fault).link = s.link := by
  rw [endStartUp_eq, State.addNews_link, State.raise_link, (attempt_panelWork _).link]
  exact (raiseIdentity_panelWork s fault).link

theorem endStartUp_held : (s.endStartUp fault).drive.held = s.drive.held := by
  rw [endStartUp_eq, State.addNews_drive, State.raise_drive, (attempt_panelWork _).held]
  exact (raiseIdentity_panelWork s fault).held

theorem endStartUp_attemptWaiting : (s.endStartUp fault).attemptWaiting = s.attemptWaiting := by
  have raised : (s.raiseIdentity fault).attemptWaiting = s.attemptWaiting := by cases fault <;> rfl
  rw [endStartUp_eq, State.addNews_attemptWaiting, State.raise_attemptWaiting, attempt_attemptWaiting]
  exact raised

/-- The full clean of step 6 is queued, or in hand (R127, R194). -/
theorem endStartUp_hasClean : (s.endStartUp fault).tiles.hasClean = true := by
  rw [endStartUp_eq, State.addNews_tiles, State.raise_tiles]
  exact attempt_hasClean (queueClean_hasClean _)

/-- CLOCK/701 is the last fault, with the stamp of the clock as it stands (R174, R194). -/
theorem endStartUp_last : (s.endStartUp fault).faults.last = some ⟨.clock701, s.clock.stamp⟩ := by
  have clock : (cleanQueued s fault).clock = s.clock := (raiseIdentity_panelWork s fault).clock
  rw [endStartUp_eq, State.addNews_faults, State.raise_faults, (attempt_panelWork _).clock, clock]
  rfl

theorem endStartUp_latches_clock : (s.endStartUp fault).faults.isLatched .clock = true := by
  rw [endStartUp_eq, addNews_isLatched, State.raise_faults]
  exact raise_latches _ .clock701 _

/-- The fault of the exchange stays latched (R170, R194). -/
theorem endStartUp_latches_fault (f : FaultCode) : (s.endStartUp (some f)).faults.isLatched f.cls = true := by
  have raised : (cleanQueued s (some f)).faults.isLatched f.cls = true := raise_latches s.faults f s.clock.stamp
  rw [endStartUp_eq, addNews_isLatched, State.raise_faults]
  exact raise_keeps_latched (contentWork_keeps_latched (attempt_contentWork _) raised) _ _

theorem endStartUp_news : (s.endStartUp fault).faults.news &&& 0x2000 ≠ 0 := addNews_news _ .startUpComplete

end EndStartUp

/-- The state with its identity exchange over (R170). -/
def exchangeOver (s : State) : State := s.setDrive { s.drive with exchange := none }

/-- With no event waiting, the end of a start-up exchange is the end of start-up (R170, R194). -/
theorem exec_identityExchange_startUp {s : State} (answer : Option (Byte × Byte)) (exchange : s.drive.exchange = some .startUp)
    (held : s.drive.held = []) (waiting : s.attemptWaiting = false) :
    exec (.identityExchange answer) s = .next ((exchangeOver s).endStartUp (s.tiles.identityFault answer)) := by
  generalize ended : (exchangeOver s).endStartUp (s.tiles.identityFault answer) = e
  have none_held : e.drive.held = [] := by rw [← ended, endStartUp_held]; exact held
  have released : e.releaseHeld = e := by
    rw [State.releaseHeld, none_held, State.driveEvents, State.setDrive, ← none_held]
  have settled : e.attemptWaiting = false := by rw [← ended, endStartUp_attemptWaiting]; exact waiting
  have run : exec (.identityExchange answer) s = .next (State.settle (State.releaseHeld e)) := by
    rw [← ended]
    simp only [exec, execIdentityExchange, exchange]
    rfl
  rw [run, released, settle_of_not_waiting settled]

/-- Settles O33, from what the end of start-up leaves in the link, the queue and the Fault Unit. -/
theorem startUpEndsWithTheClean : Obligations.StartUpEndsWithTheClean := by
  intro s answer exchange held waiting unset noWrite noReset
  generalize fault : s.tiles.identityFault answer = f
  have link := endStartUp_link (exchangeOver s) f
  have phase := endStartUp_phase (exchangeOver s) f
  have news := endStartUp_news (exchangeOver s) f
  have last := endStartUp_last (exchangeOver s) f
  have noStamp : (exchangeOver s).clock.stamp = none := by
    rw [Clock.stamp, show (exchangeOver s).clock.time = none from unset]
    rfl
  refine ⟨_, fault ▸ exec_identityExchange_startUp answer exchange held waiting, phase, ?_, endStartUp_hasClean _ f,
    noStamp ▸ last, endStartUp_latches_clock _ f, news, attn_of_news news, fun misfit => ?_⟩
  · exact (takesRequests_iff _).mpr ⟨phase, link ▸ noWrite, link ▸ noReset⟩
  · obtain ⟨code, raised, cls⟩ := identityFault_of_misfit misfit
    rw [← fault, raised, ← cls]
    exact endStartUp_latches_fault _ code

end Sys2Proof.StartUpEnd
end

section
/-! PROOFS. BEN and the supply level in each booster state (10 R156, R157, R161): which Panel Drives meet the rule, and for each
operation that reaches the Panel Drive, one lemma that it keeps the rule; with them, the same for every command. -/

namespace Sys2Proof.BoosterLines

open Sys2Proof.Machine

/-! ### Panel Drives that meet the rule, booster state by booster state -/

theorem sound_of_off {d : Drive} (off : d.booster = .off) (ben : d.ben = false) : d.sound := by
  simp [Drive.sound, off, ben]

theorem sound_of_rising {d : Drive} (rising : d.booster = .rising) (above : d.supplyAbove = true) : d.sound := by
  simp [Drive.sound, rising, above]

/-- READY and DRIVING with the supply ABOVE. -/
theorem sound_of_up {d : Drive} (up : d.booster = .ready ∨ d.booster = .driving) (ben : d.ben = true)
    (above : d.supplyAbove = true) : d.sound := by
  rcases up with up | up <;> simp [Drive.sound, up, ben, above]

/-- DRIVING after a brownout, at whatever supply level (R161, R166). -/
theorem sound_of_brownout {d : Drive} (driving : d.booster = .driving) (ben : d.ben = true) (brownout : d.brownedOut = true) :
    d.sound := by
  simp [Drive.sound, driving, ben, brownout]

/-- The identity exchange takes no part in the rule (R170). -/
theorem exchange_sound {d : Drive} (h : d.sound) (x : Option Exchange) : Drive.sound { d with exchange := x } := h

theorem lowered_sound (d : Drive) : d.lowered.sound := sound_of_off rfl rfl

/-! ### The rule as it stands in a state -/

/-- The Panel Drive's lines stand as the booster state requires. -/
def LinesSound (s : State) : Prop := s.drive.sound

theorem LinesSound.ite {c : Prop} [Decidable c] {t u : State} (h : c → LinesSound t) (k : ¬c → LinesSound u) :
    LinesSound (if c then t else u) := by
  split
  · exact h ‹_›
  · exact k ‹_›

section Operations

variable {s : State}

theorem setDrive_lines {d : Drive} (h : d.sound) : LinesSound (s.setDrive d) := h

theorem setTiles_lines (h : LinesSound s) (tm : TileMap) : LinesSound (s.setTiles tm) := h

theorem raise_lines (h : LinesSound s) (c : FaultCode) : LinesSound (s.raise c) := h

theorem addNews_lines (h : LinesSound s) (i : NewsItem) : LinesSound (s.addNews i) := h

/-- Work on the board leaves the Panel Drive alone. -/
theorem LinesSound.of_boardWork {t : State} (h : LinesSound s) (work : BoardWork s t) : LinesSound t := by
  rw [work.others]
  exact h

/-! ### Replies, faults, the receiver and the model's own choices -/

theorem raiseAll_lines (h : LinesSound s) (l : List FaultCode) : LinesSound (s.raiseAll l) := by
  induction l generalizing s with
  | nil => exact h
  | cons c l ih => exact ih (raise_lines h c)

theorem reply_lines (h : LinesSound s) (e : Result) (d : List Byte) : LinesSound (s.reply e d) := by
  unfold State.reply
  split
  · exact h
  · exact h

theorem eitherOrder_lines (h : LinesSound s) {f g : State → State} (hf : ∀ u, LinesSound u → LinesSound (f u))
    (hg : ∀ u, LinesSound u → LinesSound (g u)) : LinesSound (s.eitherOrder f g) := by
  obtain ⟨l, e | e⟩ := eitherOrder_cases s f g <;> rw [e]
  · exact hf _ (hg _ h)
  · exact hg _ (hf _ h)

/-- A reply and other work, in either order. -/
theorem answered_lines (h : LinesSound s) (e : Result) (data : State → List Byte) {work : State → State}
    (hw : ∀ u, LinesSound u → LinesSound (work u)) : LinesSound (s.eitherOrder (fun t => t.reply e (data t)) work) :=
  eitherOrder_lines h (fun _ hu => reply_lines hu _ _) hw

theorem take_lines (h : LinesSound s) (kind : Nat) {f : List Byte → State → State} (hf : ∀ p, LinesSound (f p s)) :
    LinesSound (s.take kind f) := by
  obtain e | e | ⟨r, -, -, -, -, e⟩ := take_cases s kind f <;> rw [e]
  · exact h
  · exact reply_lines h _ _
  · exact hf _

theorem storeFail_lines (h : LinesSound s) (d : List Byte) : LinesSound (s.storeFail d) :=
  answered_lines h _ _ fun _ hu => hu

theorem failConfig_lines (h : LinesSound s) (d : List Byte) : LinesSound (s.failConfig d) := storeFail_lines (by exact h) d

theorem failBegin_lines (h : LinesSound s) (i : BankId) : LinesSound (s.failBegin i) := storeFail_lines (by exact h) []

theorem touchUpload_lines (h : LinesSound s) : LinesSound s.touchUpload := .ite (fun _ => h) fun _ => h

theorem handFrame_lines (h : LinesSound s) (r : Request) : LinesSound (s.handFrame r) := .ite (fun _ => h) fun _ => h

theorem receiveByte_lines (h : LinesSound s) (b : Byte) : LinesSound (s.receiveByte b) := by
  unfold State.receiveByte
  split
  · exact .ite (fun _ => h) fun _ => h
  · exact .ite (fun _ => h) fun _ => .ite (fun _ => .ite (fun _ => handFrame_lines (by exact h) _) fun _ => h) fun _ => h

theorem receiveBytes_lines (l : List Byte) (h : LinesSound s) : LinesSound (s.receiveBytes l) := by
  induction l generalizing s with
  | nil => exact h
  | cons b l ih => exact ih (receiveByte_lines h b)

theorem choose_lines (h : LinesSound s) : LinesSound s.choose.2 := by
  unfold State.choose
  split
  · exact h
  · exact h

/-! ### Grants (R157, R164) -/

/-- A drive starts with BEN high and the supply ABOVE. -/
theorem startDrive_lines (h : LinesSound s) (ben : s.drive.ben = true) (above : s.drive.supplyAbove = true) :
    LinesSound s.startDrive := by
  unfold State.startDrive
  split
  · exact h
  · exact sound_of_up (.inr rfl) ben above

/-- A rise starts with the supply ABOVE. -/
theorem startRise_lines (above : s.drive.supplyAbove = true) : LinesSound s.startRise := sound_of_rising rfl above

theorem meetOff_lines (h : LinesSound s) : LinesSound s.meetOff := .ite startRise_lines fun _ => h

theorem meetReady_lines (h : LinesSound s) (ready : s.drive.booster = .ready) : LinesSound s.meetReady := by
  obtain ⟨-, ben, above, -⟩ := id h
  exact startDrive_lines (by exact h) (ben (.inl ready)) (above (.inr ready))

theorem meetBooster_lines (h : LinesSound s) : LinesSound s.meetBooster := by
  have chosen := choose_lines h
  have same : s.choose.2.drive = s.drive := by
    unfold State.choose
    split
    · rfl
    · rfl
  unfold State.meetBooster
  split
  case h_1 => exact meetOff_lines h
  case h_2 ready =>
    exact .ite (fun _ => .ite (fun _ => meetOff_lines (lowered_sound _)) fun _ => meetReady_lines chosen (same ▸ ready))
      fun _ => meetReady_lines h ready
  case h_3 => exact h
  case h_4 => exact h

theorem compose_lines (h : LinesSound s) (b : Bands) : LinesSound (s.compose b).1 := by
  have evaluated : LinesSound (s.evaluated b) := .ite (fun _ => h) fun _ => h
  exact raiseAll_lines evaluated _

theorem applySize_lines (h : LinesSound s) (n : Nat) : LinesSound (s.applySize n) :=
  .ite (fun _ => setTiles_lines (compose_lines (by exact h) allBands) _) fun _ => h

theorem grant_lines (h : LinesSound s) (j : Job) (band : Nat) : LinesSound (s.grant j band) :=
  .ite (fun _ => setDrive_lines (exchange_sound (applySize_lines (by exact h) j.num) _)) fun _ =>
    meetBooster_lines (by exact h)

theorem attempt_lines (h : LinesSound s) : LinesSound s.attempt := by
  unfold State.attempt
  split
  · exact h
  · exact grant_lines h _ _

theorem noteAttempt_lines (h : LinesSound s) : LinesSound s.noteAttempt :=
  .ite (fun _ => attempt_lines (choose_lines h)) fun _ => choose_lines h

/-- Every command that may bring a grant attempt ends so (R149). -/
theorem settle_lines (h : LinesSound s) : LinesSound s.settle := .ite (fun _ => attempt_lines (by exact h)) fun _ => h

/-! ### Recompositions, cleans, the board, the banks and the Notice List -/

theorem takeTiles_lines (h : LinesSound s) (a : TileMap × Bool) : LinesSound (s.takeTiles a) :=
  .ite (fun _ => noteAttempt_lines (by exact h)) fun _ => h

theorem handOverAll_lines (l : List Nat) (h : LinesSound s) : LinesSound (s.handOverAll l) := by
  induction l generalizing s with
  | nil => exact h
  | cons r l ih =>
    have one : LinesSound (s.handOver r) := takeTiles_lines h _
    exact ih one

theorem recompose_lines (h : LinesSound s) (b : Bands) : LinesSound (s.recompose b) :=
  handOverAll_lines _ (compose_lines h b)

theorem queueFullClean_lines (h : LinesSound s) : LinesSound s.queueFullClean :=
  .ite (fun _ => noteAttempt_lines (by exact h)) fun _ => h

theorem rebuildBoard_lines (h : LinesSound s) : LinesSound s.rebuildBoard :=
  recompose_lines (h.of_boardWork (rebuild_boardWork s)) _

theorem selectBanks_lines (h : LinesSound s) : LinesSound s.selectBanks := by
  unfold State.selectBanks
  split
  · exact h
  · exact .ite (fun _ => h) fun _ => h

theorem afterCommit_lines (h : LinesSound s) (before : Option BankId) {answer : State → State}
    (ha : ∀ u, LinesSound u → LinesSound (answer u)) : LinesSound (s.afterCommit before answer) :=
  .ite (fun _ => ha _ (selectBanks_lines h)) fun _ =>
    eitherOrder_lines ((selectBanks_lines h).of_boardWork (rebuild_boardWork _)) ha fun _ hu => recompose_lines hu _

theorem noticeChange_lines (h : LinesSound s) (l : List Notice) {answer : State → State}
    (ha : ∀ u, LinesSound u → LinesSound (answer u)) : LinesSound (s.noticeChange l answer) :=
  eitherOrder_lines (by exact h) ha fun _ hu => .ite (fun _ => recompose_lines hu _) fun _ => hu

theorem expireNotices_lines (h : LinesSound s) : LinesSound s.expireNotices := by
  unfold State.expireNotices
  split
  · exact h
  · exact .ite (fun _ => recompose_lines (by exact h) _) fun _ => h

theorem sweepBoard_lines (h : LinesSound s) : LinesSound s.sweepBoard := .ite (fun _ => h) fun _ => h

/-! ### Events at the Panel Drive (R158 to R161, R165 to R167) -/

theorem returnGranted_lines (h : LinesSound s) : LinesSound s.returnGranted := by
  unfold State.returnGranted
  split
  · exact h
  · exact h

/-- A brownout lowers a booster that rises or is READY, and is kept while one drives (R161). -/
theorem takeBrownout_lines (h : LinesSound s) : LinesSound s.takeBrownout := by
  obtain ⟨offLow, upHigh, -, -⟩ := id h
  unfold State.takeBrownout
  split
  case h_1 off => exact sound_of_off off (offLow off)
  case h_2 => exact attempt_lines (returnGranted_lines (lowered_sound _))
  case h_3 => exact lowered_sound _
  case h_4 driving => exact sound_of_brownout driving (upHigh (.inr driving)) rfl

/-- With the supply ABOVE only BEN is bound (R161). -/
theorem takeSupplyRise_lines (h : LinesSound s) : LinesSound s.takeSupplyRise := by
  obtain ⟨offLow, upHigh, -, -⟩ := id h
  exact .ite (fun _ => startRise_lines rfl) fun _ => ⟨offLow, upHigh, fun _ => rfl, fun _ _ => rfl⟩

theorem takeLingerExpiry_lines (h : LinesSound s) : LinesSound s.takeLingerExpiry :=
  .ite (fun _ => lowered_sound _) fun _ => h

/-- A cut frame ends in OFF after a brownout, and in READY while the supply has stayed ABOVE (R167). -/
theorem endCutFrame_lines (h : LinesSound s) (driving : s.drive.booster = .driving) : LinesSound s.endCutFrame := by
  obtain ⟨-, -, -, above⟩ := id h
  have ended : LinesSound (if s.drive.brownedOut then
      s.setDrive (Drive.lowered { s.drive with cutFrame := false, brownedOut := false })
    else { s with
      drive := Drive.raised { s.drive with cutFrame := false, brownedOut := false }
      timers := s.timers.startLinger }) :=
    .ite (fun _ => lowered_sound _) fun supplied =>
      sound_of_up (.inl rfl) rfl (above driving (eq_false_of_ne_true supplied))
  exact .ite (fun _ => meetBooster_lines (by exact ended)) fun _ => ended

theorem abortDrive_lines (h : LinesSound s) : LinesSound s.abortDrive := by
  unfold State.abortDrive
  split
  · exact h
  · exact attempt_lines (s := State.setTiles (s.setDrive _) _) (sound_of_off rfl rfl)

/-- The last frame's end leaves the booster READY (R165). -/
theorem completeDrive_lines (h : LinesSound s) (above : s.drive.supplyAbove = true) : LinesSound s.completeDrive := by
  unfold State.completeDrive
  split
  · exact h
  · exact attempt_lines (sound_of_up (.inl rfl) rfl above)

theorem takeFrameEnd_lines (h : LinesSound s) : LinesSound s.takeFrameEnd := by
  obtain ⟨-, -, -, above⟩ := id h
  refine .ite (fun _ => h) fun driving => .ite (fun _ => endCutFrame_lines h (Decidable.not_not.mp driving)) fun _ =>
    .ite (fun _ => abortDrive_lines (by exact h)) fun supplied => .ite (fun _ => ?_) fun _ => h
  exact completeDrive_lines (by exact h) (above (Decidable.not_not.mp driving) (eq_false_of_ne_true supplied))

/-- A request reset lowers a booster that rises, and leaves any other in its state (R167). -/
theorem resetDrive_lines (h : LinesSound s) : LinesSound s.resetDrive := by
  unfold State.resetDrive
  split
  · exact h
  · exact lowered_sound _
  · exact h
  · exact h

theorem takeRequestReset_lines (h : LinesSound s) : LinesSound s.takeRequestReset := by
  have blocks : LinesSound s.resetBlocks := resetDrive_lines (by exact h)
  exact recompose_lines (recompose_lines (takeTiles_lines (blocks.of_boardWork (rebuildFrom_boardWork _ _)) _) _) _

theorem driveEvent_lines (h : LinesSound s) (e : DriveEvent) : LinesSound (s.driveEvent e) := by
  refine .ite (fun _ => h) fun _ => ?_
  cases e with
  | brownout => exact takeBrownout_lines h
  | supplyRise => exact takeSupplyRise_lines h
  | lingerExpiry => exact takeLingerExpiry_lines h
  | frameEnd => exact takeFrameEnd_lines h
  | requestReset => exact takeRequestReset_lines h

theorem driveEvents_lines (l : List DriveEvent) (h : LinesSound s) : LinesSound (s.driveEvents l) := by
  induction l generalizing s with
  | nil => exact h
  | cons e l ih => exact ih (driveEvent_lines h e)

theorem releaseHeld_lines (h : LinesSound s) : LinesSound s.releaseHeld := driveEvents_lines _ (by exact h)

theorem moveLevel_lines (h : LinesSound s) (above : Bool) : LinesSound (s.moveLevel above) :=
  .ite (fun _ => h) fun _ => driveEvent_lines h _

theorem seeVoltage_lines (h : LinesSound s) (mv : Int) : LinesSound (s.seeVoltage mv) :=
  .ite (fun _ => h) fun _ => moveLevel_lines h _

/-- A failed rise ends in OFF (R158). -/
theorem failRise_lines (s : State) : LinesSound s.failRise :=
  attempt_lines (returnGranted_lines (s := s.setDrive s.drive.lowered) (lowered_sound _))

/-! ### The identity exchange (R170, R171, R194) -/

theorem raiseIdentity_lines (h : LinesSound s) (fault : Option FaultCode) : LinesSound (s.raiseIdentity fault) := by
  cases fault with
  | none => exact h
  | some f => exact h

theorem decideClean_lines (h : LinesSound s) (fault : Option FaultCode) : LinesSound (s.decideClean fault) :=
  .ite (fun _ => attempt_lines (returnGranted_lines h)) fun _ => .ite (fun _ => meetBooster_lines h) fun _ => h

theorem takeHeldFirst_lines (h : LinesSound s) : LinesSound s.takeHeldFirst := by
  have events : LinesSound ((s.setDrive { s.drive with granted := none, held := [] }).driveEvents
      (s.drive.held.takeWhile (· != .requestReset))) := driveEvents_lines _ (by exact h)
  exact events

theorem endCleanExchange_lines (h : LinesSound s) (fault : Option FaultCode) : LinesSound (s.endCleanExchange fault) := by
  have raised := raiseIdentity_lines h fault
  exact .ite (fun _ => decideClean_lines raised _) fun _ =>
    .ite (fun _ => decideClean_lines (takeHeldFirst_lines (choose_lines raised)) _) fun _ =>
      decideClean_lines (choose_lines raised) _

theorem endStartUp_lines (h : LinesSound s) (fault : Option FaultCode) : LinesSound (s.endStartUp fault) := by
  have queued : LinesSound (StartUpEnd.cleanQueued s fault) := raiseIdentity_lines h fault
  rw [StartUpEnd.endStartUp_eq]
  exact addNews_lines (raise_lines (attempt_lines queued) _) _

/-! ### Samples and start-up -/

theorem judgeConserve_lines (h : LinesSound s) (vs : Nat) : LinesSound (s.judgeConserve vs) :=
  .ite (fun _ => .ite (fun _ => h) fun _ => .ite (fun _ => h) fun _ => h) fun _ => .ite (fun _ => h) fun _ => h

theorem sampleOwn_lines (h : LinesSound s) (mv c : Int) : LinesSound (s.sampleOwn mv c) :=
  judgeConserve_lines (s := s.measure mv c) h _

theorem tempFault_lines (h : LinesSound s) (c : Int) : LinesSound (s.tempFault c) :=
  .ite (fun _ => h) fun _ => .ite (fun _ => h) fun _ => h

theorem handConserve_lines (h : LinesSound s) (was : Bool) : LinesSound (s.handConserve was) :=
  .ite (fun _ => h) fun _ =>
    .ite (fun _ => noteAttempt_lines (recompose_lines h _)) fun _ => recompose_lines h _

theorem sample_lines (h : LinesSound s) (mv c : Int) : LinesSound (s.sample mv c) :=
  noteAttempt_lines (eitherOrder_lines (sampleOwn_lines h mv c) (fun _ hu => handConserve_lines hu _)
    fun _ hu => tempFault_lines hu c)

theorem loadConfig_lines (h : LinesSound s) : LinesSound s.loadConfig := .ite (fun _ => h) fun _ => h

theorem checkBank_lines (h : LinesSound s) (i : BankId) (f : FaultCode) : LinesSound (s.checkBank i f) :=
  .ite (fun _ => h) fun _ => h

theorem checkTables_lines (h : LinesSound s) : LinesSound s.checkTables := raiseAll_lines (by exact h) _

theorem firstSample_lines (h : LinesSound s) (mv c : Int) : LinesSound (s.firstSample mv c) := by
  have tested : LinesSound (((s.seeVoltage mv).sampleOwn mv c).tempFault c) :=
    tempFault_lines (sampleOwn_lines (seeVoltage_lines h mv) mv c) c
  exact tested

theorem firstImage_lines (h : LinesSound s) : LinesSound s.firstImage := setTiles_lines (compose_lines h allBands) _

/-- A reset of every block leaves the booster in OFF with BEN low (R155, R193). -/
theorem dropped_lines (s : State) (phase : Phase) (cause : ResetCause) : LinesSound (s.dropped phase cause) :=
  sound_of_off rfl rfl

/-- Start-up begins in OFF, where the comparator may read any level (R155, R194). -/
theorem startUp_lines (off : s.drive.booster = .off) (ben : s.drive.ben = false) (br1 br0 above : Bool) (mv c : Int) :
    LinesSound (s.startUp br1 br0 above mv c) := by
  have loaded : LinesSound (State.loadConfig { s with
      link := { s.link with br1 := br1, br0 := br0 }
      drive := { s.drive with supplyAbove := above } }) := loadConfig_lines (sound_of_off off ben)
  have checked := checkTables_lines (checkBank_lines (checkBank_lines loaded .a .store102) .b .store103)
  exact setDrive_lines (exchange_sound (firstImage_lines (firstSample_lines checked mv c)) _)

/-! ### The clock and the owners of parameters -/

theorem timeEffects_lines (h : LinesSound s) (c : TimeCase) : LinesSound (s.timeEffects c) := by
  cases c with
  | firstSet => exact rebuildBoard_lines (selectBanks_lines h)
  | dateChange => exact rebuildBoard_lines (selectBanks_lines h)
  | jump => exact raise_lines (rebuildBoard_lines h) _
  | adjust => exact h

theorem rollover_lines (h : LinesSound s) : LinesSound s.rollover := by
  have selected : LinesSound (s.setBoard (s.board.rebase s.cfg.grace)).selectBanks := selectBanks_lines (by exact h)
  exact addNews_lines (recompose_lines (selected.of_boardWork (refill_boardWork _)) _) _

theorem minuteTick_lines (h : LinesSound s) (minute : Nat) : LinesSound (s.minuteTick minute) := by
  have clean {u : State} (hu : LinesSound u) : LinesSound (u.dailyClean minute) :=
    .ite (fun _ => queueFullClean_lines hu) fun _ => hu
  have light {u : State} (hu : LinesSound u) : LinesSound (u.frontlightMatch minute) :=
    .ite (fun _ => hu) fun _ => .ite (fun _ => hu) fun _ => hu
  exact light (clean (recompose_lines (h.of_boardWork (refill_boardWork s)) _))

theorem secondEvent_lines (h : LinesSound s) (t : ClockTime) : LinesSound (s.secondEvent t) := by
  have rolled : LinesSound (if t.second = 86399 then State.rollover { s with clock := ⟨some t.tick, 0⟩ }
      else { s with clock := ⟨some t.tick, 0⟩ }) := .ite (fun _ => rollover_lines (by exact h)) fun _ => h
  exact .ite (fun _ => minuteTick_lines rolled _) fun _ => rolled

/-- Whatever a parameter's owner does with its new value (R188). -/
theorem handParam_lines (h : LinesSound s) (id old : Nat) : LinesSound (s.handParam id old) := by
  have sized : LinesSound (if s.sizeDiffers then s.queueFullClean else s) := .ite (fun _ => queueFullClean_lines h) fun _ => h
  unfold State.handParam
  split
  case h_1 | h_2 => exact sized
  case h_4 | h_5 => exact .ite (fun _ => h) fun _ => recompose_lines (by exact h) _
  case h_14 => exact takeTiles_lines h _
  case h_15 => exact seeVoltage_lines (s := s.fresh.2) h _
  case h_3 | h_6 | h_7 | h_8 | h_9 | h_10 | h_11 | h_12 => exact recompose_lines h _
  all_goals exact h

end Operations

/-! ### The commands -/

/-- Whatever next state a command answers, the lines stand as the booster state requires. -/
def LeavesSound (o : Host.Outcome State Fault Refusal) : Prop := ∀ t, o = .next t → LinesSound t

theorem LeavesSound.next {s : State} (h : LinesSound s) : LeavesSound (.next s) := by
  rintro t ⟨⟩
  exact h

section Commands

variable {s : State}

theorem execBadKind_lines (h : LinesSound s) : LeavesSound (execBadKind s) := by
  refine .next ?_
  split
  · exact h
  · exact .ite (fun _ => reply_lines h _ _) fun _ => h

theorem execTimeSet_lines (h : LinesSound s) : LeavesSound (execTimeSet s) :=
  .next <| settle_lines <| take_lines h _ fun _ =>
    .ite (fun _ => answered_lines (timeEffects_lines (by exact h) _) _ _ fun _ hu => recompose_lines hu _)
      fun _ => reply_lines h _ _

theorem execConfigSet_lines (h : LinesSound s) : LeavesSound (execConfigSet s) :=
  .next <| take_lines h _ fun _ =>
    .ite (fun _ => .ite (fun _ => h) fun _ => reply_lines h _ _) fun _ => reply_lines h _ _

theorem execConfigWriteEnd_lines (h : LinesSound s) (verified : Bool) : LeavesSound (execConfigWriteEnd verified s) := by
  refine .next ?_
  split
  · exact .ite (fun _ => settle_lines <| answered_lines (by exact h) _ _ fun _ hu => handParam_lines hu _ _) fun _ =>
      failConfig_lines h _
  · exact h

theorem execConfigGet_lines (h : LinesSound s) : LeavesSound (execConfigGet s) :=
  .next <| take_lines h _ fun _ =>
    .ite (fun _ => reply_lines h _ _) fun _ => .ite (fun _ => reply_lines h _ _) fun _ => reply_lines h _ _

theorem execWindowSet_lines (h : LinesSound s) : LeavesSound (execWindowSet s) :=
  .next <| take_lines h _ fun _ =>
    .ite (fun _ => h) fun _ => .ite (fun _ => reply_lines h _ _) fun _ => reply_lines h _ _

theorem execWindowWriteEnd_lines (h : LinesSound s) (verified : Bool) : LeavesSound (execWindowWriteEnd verified s) := by
  refine .next ?_
  split
  · exact .ite (fun _ => reply_lines (by exact h) _ _) fun _ => failConfig_lines h _
  · exact h

theorem execUploadBegin_lines (h : LinesSound s) : LeavesSound (execUploadBegin s) := by
  refine .next <| take_lines h _ fun _ => ?_
  have touched := touchUpload_lines h
  exact .ite (fun _ => reply_lines touched _ _) fun _ => .ite (fun _ => touched) fun _ => reply_lines touched _ _

theorem execBankEraseEnd_lines (h : LinesSound s) (verified : Bool) : LeavesSound (execBankEraseEnd verified s) := by
  refine .next ?_
  split
  · exact .ite (fun _ => h) fun _ => failBegin_lines (by exact h) _
  · exact h

theorem execFillingHeaderWriteEnd_lines (h : LinesSound s) (verified : Bool) :
    LeavesSound (execFillingHeaderWriteEnd verified s) := by
  refine .next ?_
  split
  · exact .ite (fun _ => reply_lines (by exact h) _ _) fun _ => failBegin_lines (by exact h) _
  · exact h

theorem execTripBlock_lines (h : LinesSound s) : LeavesSound (execTripBlock s) := by
  refine .next <| take_lines h _ fun _ => ?_
  have touched := touchUpload_lines h
  dsimp only
  split
  · exact reply_lines touched _ _
  · split
    · exact reply_lines touched _ _
    · exact touched

theorem execTripBlockWriteEnd_lines (h : LinesSound s) (verified : Bool) :
    LeavesSound (execTripBlockWriteEnd verified s) := by
  refine .next ?_
  split
  · exact .ite (fun _ => reply_lines (by exact h) _ _) fun _ => storeFail_lines (by exact h) _
  · exact h

theorem execUploadCommit_lines (h : LinesSound s) : LeavesSound (execUploadCommit s) := by
  refine .next <| take_lines h _ fun _ => ?_
  have touched := touchUpload_lines h
  dsimp only
  split
  · exact reply_lines touched _ _
  · exact .ite (fun _ => touched) fun _ => reply_lines touched _ _

theorem execCommitHeaderWriteEnd_lines (h : LinesSound s) (verified : Bool) :
    LeavesSound (execCommitHeaderWriteEnd verified s) := by
  refine .next ?_
  split
  · exact .ite (fun _ => settle_lines <| afterCommit_lines (by exact h) _ fun _ hu => reply_lines hu _ _) fun _ =>
      storeFail_lines (by exact h) _
  · exact h

theorem execUploadAbort_lines (h : LinesSound s) : LeavesSound (execUploadAbort s) :=
  .next <| take_lines h _ fun _ => .ite (fun _ => reply_lines (by exact h) _ _) fun _ => reply_lines h _ _

theorem execPredict_lines (h : LinesSound s) : LeavesSound (execPredict s) :=
  .next <| settle_lines <| take_lines h _ fun _ =>
    .ite (fun _ => answered_lines (h.of_boardWork (intakeAll_boardWork _ s)) _ _ fun _ hu =>
      .ite (fun _ => recompose_lines hu _) fun _ => hu) fun _ => reply_lines h _ _

theorem execNoticePost_lines (h : LinesSound s) : LeavesSound (execNoticePost s) := by
  refine .next <| settle_lines <| take_lines h _ fun _ => ?_
  split
  · exact reply_lines h _ _
  · exact noticeChange_lines h _ fun _ hu => reply_lines hu _ _

theorem execNoticeWithdraw_lines (h : LinesSound s) : LeavesSound (execNoticeWithdraw s) :=
  .next <| settle_lines <| take_lines h _ fun _ =>
    .ite (fun _ => reply_lines h _ _) fun _ =>
      .ite (fun _ => noticeChange_lines h _ fun _ hu => reply_lines hu _ _) fun _ => reply_lines h _ _

theorem execTextPut_lines (h : LinesSound s) : LeavesSound (execTextPut s) :=
  .next <| take_lines h _ fun _ => .ite (fun _ => h) fun _ => reply_lines h _ _

/-- The end of a text's or a glyph's write: a reply, or a failure, and a recomposition in either order (R97 to R99). -/
theorem tableWriteEnd_lines {verified : Bool} {put lost : State} (hp : LinesSound put) (hl : LinesSound lost) (d : List Byte) :
    LinesSound (State.settle <|
      if verified then put.eitherOrder (fun t => t.reply .ok d) fun t => t.recompose allBands
      else lost.eitherOrder (fun t => t.storeFail d) fun t => t.recompose allBands) :=
  settle_lines <| .ite (fun _ => answered_lines hp _ _ fun _ hu => recompose_lines hu _) fun _ =>
    eitherOrder_lines hl (fun _ hu => storeFail_lines hu _) fun _ hu => recompose_lines hu _

theorem execTextWriteEnd_lines (h : LinesSound s) (verified : Bool) : LeavesSound (execTextWriteEnd verified s) := by
  refine .next ?_
  split
  · exact tableWriteEnd_lines (by exact h) (by exact h) _
  · exact h

theorem execGlyphPut_lines (h : LinesSound s) : LeavesSound (execGlyphPut s) :=
  .next <| take_lines h _ fun _ => .ite (fun _ => h) fun _ => reply_lines h _ _

theorem execGlyphWriteEnd_lines (h : LinesSound s) (verified : Bool) : LeavesSound (execGlyphWriteEnd verified s) := by
  refine .next ?_
  split
  · exact tableWriteEnd_lines (by exact h) (by exact h) _
  · exact h

theorem execBoardRead_lines (h : LinesSound s) : LeavesSound (execBoardRead s) :=
  .next <| take_lines h _ fun _ => .ite (fun _ => reply_lines h _ _) fun _ => reply_lines h _ _

theorem execFaultClear_lines (h : LinesSound s) : LeavesSound (execFaultClear s) :=
  .next <| settle_lines <| take_lines h _ fun _ =>
    answered_lines (s := s.clearFaults) h _ _ fun _ hu => .ite (fun _ => noteAttempt_lines hu) fun _ => hu

theorem execCleanNow_lines (h : LinesSound s) : LeavesSound (execCleanNow s) :=
  .next <| settle_lines <| take_lines h _ fun _ =>
    .ite (fun _ => answered_lines (by exact h) _ _ fun _ hu => noteAttempt_lines hu) fun _ => reply_lines h _ _

theorem execReset_lines (h : LinesSound s) : LeavesSound (execReset s) :=
  .next <| take_lines h _ fun _ => by
    have answered := reply_lines h .ok []
    exact answered

theorem execSecondEvent_lines (h : LinesSound s) : LeavesSound (execSecondEvent s) := by
  refine .next ?_
  split
  · exact h
  · exact settle_lines (secondEvent_lines h _)

theorem execSweep_lines (h : LinesSound s) : LeavesSound (execSweep s) :=
  .next <| .ite (fun _ => settle_lines <| expireNotices_lines <| recompose_lines (sweepBoard_lines (by exact h)) _) fun _ => h

theorem execSupplySample_lines (h : LinesSound s) (mv c : Int) : LeavesSound (execSupplySample mv c s) :=
  .next <| .ite (fun _ => settle_lines <| sample_lines (seeVoltage_lines (by exact h) _) _ _) fun _ => h

theorem execRotation_lines (h : LinesSound s) : LeavesSound (execRotation s) := by
  unfold execRotation
  split
  · dsimp only
    split
    · exact .next <| settle_lines <| recompose_lines (by exact h) _
    · exact .next h
  · exact .next h

/-- In RISING the supply is ABOVE, so BGOOD may raise the booster; without it BEN is low for a pause or for OFF (R158). -/
theorem execRiseExpiry_lines (h : LinesSound s) (bgood : Bool) : LeavesSound (execRiseExpiry bgood s) := by
  refine .next <| .ite (fun due => ?_) fun _ => h
  obtain ⟨-, rising⟩ : s.timers.rise.running = true ∧ s.drive.booster = .rising := by simpa using due
  obtain ⟨-, -, supplied, -⟩ := id h
  have above := supplied (.inl rising)
  exact .ite (fun _ => startDrive_lines (sound_of_up (.inl rfl) rfl above) rfl above) fun _ =>
    .ite (fun _ => sound_of_rising rising above) fun _ => failRise_lines _

/-- A rise that begins again finds the supply ABOVE still (R159, R161). -/
theorem execRetryPauseExpiry_lines (h : LinesSound s) : LeavesSound (execRetryPauseExpiry s) := by
  refine .next <| .ite (fun due => ?_) fun _ => h
  obtain ⟨-, rising⟩ : s.timers.retry.running = true ∧ s.drive.booster = .rising := by simpa using due
  obtain ⟨-, -, supplied, -⟩ := id h
  exact startRise_lines (by exact supplied (.inl rising))

theorem execLingerExpiry_lines (h : LinesSound s) : LeavesSound (execLingerExpiry s) :=
  .next <| .ite (fun _ => settle_lines (driveEvent_lines (by exact h) _)) fun _ => h

theorem execIdentityExchange_lines (h : LinesSound s) (answer : Option (Byte × Byte)) :
    LeavesSound (execIdentityExchange answer s) := by
  refine .next ?_
  split
  · exact h
  · exact settle_lines (releaseHeld_lines (endStartUp_lines (by exact h) _))
  · exact settle_lines (releaseHeld_lines (endCleanExchange_lines (by exact h) _))

theorem execPowerOnReset_lines (s : State) (br1 br0 above : Bool) (mv c : Int) :
    LeavesSound (execPowerOnReset br1 br0 above mv c s) :=
  .next <| .ite (fun _ => dropped_lines s _ _) fun _ => startUp_lines rfl rfl _ _ _ _ _

theorem execLineResetAssert_lines (h : LinesSound s) : LeavesSound (execLineResetAssert s) :=
  .next <| .ite (fun _ => h) fun _ => dropped_lines s .held .line

theorem execLineResetRelease_lines (h : LinesSound s) (br1 br0 above : Bool) (mv c : Int) :
    LeavesSound (execLineResetRelease br1 br0 above mv c s) :=
  .next <| .ite (fun _ => startUp_lines rfl rfl _ _ _ _ _) fun _ => h

/-- Every command keeps the lines as the booster state requires. -/
theorem exec_lines (h : LinesSound s) (c : Instr) : LeavesSound (exec c s) := by
  cases c with
  | frameReceived => exact .next <| .ite (fun _ => receiveBytes_lines _ h) fun _ => h
  | frameGapTimeout => exact .next h
  | framingError => exact .next h
  | badKind => exact execBadKind_lines h
  | status => exact .next <| take_lines h _ fun _ => reply_lines (by exact h) _ _
  | timeSet => exact execTimeSet_lines h
  | configSet => exact execConfigSet_lines h
  | configWriteEnd => exact execConfigWriteEnd_lines h _
  | configGet => exact execConfigGet_lines h
  | windowSet => exact execWindowSet_lines h
  | windowWriteEnd => exact execWindowWriteEnd_lines h _
  | uploadBegin => exact execUploadBegin_lines h
  | bankEraseEnd => exact execBankEraseEnd_lines h _
  | fillingHeaderWriteEnd => exact execFillingHeaderWriteEnd_lines h _
  | tripBlock => exact execTripBlock_lines h
  | tripBlockWriteEnd => exact execTripBlockWriteEnd_lines h _
  | uploadCommit => exact execUploadCommit_lines h
  | commitHeaderWriteEnd => exact execCommitHeaderWriteEnd_lines h _
  | uploadAbort => exact execUploadAbort_lines h
  | uploadIdleTimeout => exact .next <| .ite (fun _ => h) fun _ => h
  | predict => exact execPredict_lines h
  | noticePost => exact execNoticePost_lines h
  | noticeWithdraw => exact execNoticeWithdraw_lines h
  | textPut => exact execTextPut_lines h
  | textWriteEnd => exact execTextWriteEnd_lines h _
  | glyphPut => exact execGlyphPut_lines h
  | glyphWriteEnd => exact execGlyphWriteEnd_lines h _
  | boardRead => exact execBoardRead_lines h
  | faultRead => exact .next <| take_lines h _ fun _ => reply_lines h _ _
  | faultClear => exact execFaultClear_lines h
  | cleanNow => exact execCleanNow_lines h
  | reset => exact execReset_lines h
  | requestReset => exact .next <| .ite (fun _ => settle_lines (driveEvent_lines h _)) fun _ => h
  | secondEvent => exact execSecondEvent_lines h
  | sweep => exact execSweep_lines h
  | supplySample => exact execSupplySample_lines h _ _
  | rotation => exact execRotation_lines h
  | riseExpiry => exact execRiseExpiry_lines h _
  | retryPauseExpiry => exact execRetryPauseExpiry_lines h
  | lingerExpiry => exact execLingerExpiry_lines h
  | frameEnd => exact .next <| .ite (fun _ => settle_lines (driveEvent_lines h _)) fun _ => h
  | identityExchange => exact execIdentityExchange_lines h _
  | brownout => exact .next <| .ite (fun _ => settle_lines (moveLevel_lines h _)) fun _ => h
  | supplyLevelRise => exact .next <| .ite (fun _ => settle_lines (moveLevel_lines h _)) fun _ => h
  | powerOnReset => exact execPowerOnReset_lines s _ _ _ _ _
  | lineResetAssert => exact execLineResetAssert_lines h
  | lineResetRelease => exact execLineResetRelease_lines h _ _ _ _ _
  | powerLoss => exact .next (dropped_lines s _ _)
  | elapsedSecond => exact .next <| .ite (fun _ => h) fun _ => h
  | replySent => exact .next h

end Commands

/-- Settles O9, from what every command keeps. -/
theorem stepKeepsBoosterLinesSound : Obligations.StepKeepsBoosterLinesSound := by
  intro s t sound h
  unfold step at h
  split at h
  · cases h
    exact sound
  · rename_i c rest _
    exact exec_lines (s := s.setPending rest) sound c t h

end Sys2Proof.BoosterLines
end

section
/-! PROOFS. STATUS, BOARD_READ and FAULT_READ (11 R176 to R180): the number of bytes of each form that the replies are made of, the
layout of each part of them, and with these the three commands. -/

namespace Sys2Proof.ReadReplies

open Sys2Proof.Machine

/-! ### Lengths of the wire forms (R183) -/

@[simp] theorem b8_length (n : Nat) : (b8 n).length = 1 := rfl
@[simp] theorem b16_length (n : Nat) : (b16 n).length = 2 := rfl
@[simp] theorem b24_length (n : Nat) : (b24 n).length = 3 := rfl
@[simp] theorem s8_length (t : Int) : (s8 t).length = 1 := rfl
@[simp] theorem flag8_length (b : Bool) : (flag8 b).length = 1 := rfl

/-- The bytes of a signed byte are its two's complement (R179). -/
theorem s8_eq_ofInt (t : Int) : s8 t = [BitVec.ofInt 8 t] := by
  have small : (t % 256).toNat < 256 := by omega
  refine congrArg (fun b => [b]) (BitVec.eq_of_toNat_eq ?_)
  rw [BitVec.toNat_ofNat, BitVec.toNat_ofInt]
  exact Nat.mod_eq_of_lt small

/-! ### Requests that are answered at once (R186, R187) -/

section Requests

variable {s : State} {r : Request} {rest : List Request}

/-- A request refused BAD_LENGTH is answered with the header alone. -/
theorem take_badLength_answered (h : s.headIs r rest) {kind : Nat} (hk : r.kind.toNat = kind)
    (hl : lengthAllowed kind r.payload.length = false) (f : List Byte → State → State) :
    s.take kind f = { s with link := s.link.answered r rest 3 s.faults.newsFlag [] } :=
  (take_badLength h hk hl f).trans (reply_answered (headIs_requests h) .badLength [])

/-- A taken STATUS empties the news set before its reply is formed, so that the reply's news flag is 0 (R178). -/
theorem exec_status_of_headIs (h : s.headIs r rest) (hk : r.kind = 0x01) (hp : r.payload = []) :
    exec .status s = .next { s with
      faults := { s.faults with news := 0 }
      link := s.link.answered r rest 0 false s.statusData } := by
  have kind : r.kind.toNat = 0x01 := by rw [hk]; rfl
  have length : lengthAllowed 0x01 r.payload.length = true := by rw [hp]; rfl
  have queued : (s.setFaults { s.faults with news := 0 }).link.requests = r :: rest := headIs_requests h
  exact congrArg Host.Outcome.next ((take_work h kind length _).trans (reply_answered queued .ok s.statusData))

/-- A taken BOARD_READ of two bytes answers the board's count and a slice of it, or RANGE alone (R180). -/
theorem exec_boardRead_of_headIs (h : s.headIs r rest) (hk : r.kind = 0x0F) {start count : Byte}
    (hp : r.payload = [start, count]) :
    exec .boardRead s = .next
      (if boardReadInRange [start, count] then
        s.reply .ok (b8 s.board.entries.length ++ b8 (s.board.slice start.toNat count.toNat).length ++
          (s.board.slice start.toNat count.toNat).flatMap Entry.bytes)
      else s.reply .range []) := by
  have kind : r.kind.toNat = 0x0F := by rw [hk]; rfl
  have length : lengthAllowed 0x0F r.payload.length = true := by rw [hp]; rfl
  rw [← hp, exec, execBoardRead, take_work h kind length, hp]
  rfl

/-- A taken FAULT_READ answers both records and the count as they stand (R176). -/
theorem exec_faultRead_of_headIs (h : s.headIs r rest) (hk : r.kind = 0x10) (hp : r.payload = []) :
    exec .faultRead s = .next { s with
      link := s.link.answered r rest 0 s.faults.newsFlag
        (recordBytes s.faults.first ++ recordBytes s.faults.last ++ b16 s.faults.count) } := by
  have kind : r.kind.toNat = 0x10 := by rw [hk]; rfl
  have length : lengthAllowed 0x10 r.payload.length = true := by rw [hp]; rfl
  exact congrArg Host.Outcome.next ((take_work h kind length _).trans (reply_answered (headIs_requests h) .ok _))

end Requests

/-! ### The parts of the STATUS reply (R179) -/

/-- The clock's six bytes are 0 while UNSET; while RUNNING they are 1, the wall time's hour, minute and second, and the service
date. -/
theorem clock_statusBytes (c : Clock) :
    c.statusBytes =
      match c.time with
      | none => List.replicate 6 0
      | some u =>
        [1] ++ b8 (u.wallSecond / 3600) ++ b8 (u.wallSecond / 60 % 60) ++ b8 (u.wallSecond % 60) ++ b16 u.date := by
  rw [Clock.statusBytes]
  cases c.time <;> rfl

theorem clock_statusBytes_length (c : Clock) : c.statusBytes.length = 6 := by
  rw [clock_statusBytes]
  cases c.time <;> rfl

/-- A role is held when the record of either bank names it. -/
theorem holder_isSome (st : Store) (x : Role) :
    (st.holder x).isSome = (decide (st.bankA.role = some x) || decide (st.bankB.role = some x)) := by
  by_cases a : st.bankA.role = some x
  · simp [Store.holder, a]
  · by_cases b : st.bankB.role = some x <;> simp [Store.holder, a, b]

/-- The date of a role is that of the bank whose record names it. -/
theorem roleDate_eq (st : Store) (x : Role) :
    st.roleDate x =
      if decide (st.bankA.role = some x) then st.bankA.date
      else if decide (st.bankB.role = some x) then st.bankB.date else 0 := by
  by_cases a : st.bankA.role = some x
  · simp [Store.roleDate, Store.holder, Store.bank, a]
  · by_cases b : st.bankB.role = some x <;> simp [Store.roleDate, Store.holder, Store.bank, a, b]

/-- The upload's two bytes are 0 and 0 while CLOSED, 1 and the expected block number while OPEN. -/
theorem upload_statusBytes (st : Store) :
    flag8 st.upload.isSome ++ b8 st.expected =
      match st.upload with
      | none => [0, 0]
      | some u => [1] ++ b8 u.expected := by
  rw [Store.expected]
  cases st.upload <;> rfl

/-- The Timetable Store's part, the holders of the roles read off the two bank records. -/
theorem store_statusBytes (st : Store) :
    st.statusBytes =
      b16 (if decide (st.bankA.role = some .current) then st.bankA.date
        else if decide (st.bankB.role = some .current) then st.bankB.date else 0) ++
      b16 (if decide (st.bankA.role = some .next) then st.bankA.date
        else if decide (st.bankB.role = some .next) then st.bankB.date else 0) ++
      [if decide (st.bankA.role = some .current) || decide (st.bankB.role = some .current) then 1 else 0,
        if decide (st.bankA.role = some .next) || decide (st.bankB.role = some .next) then 1 else 0,
        if st.reuse then 1 else 0] ++
      match st.upload with
      | none => [0, 0]
      | some u => [1] ++ b8 u.expected := by
  rw [Store.statusBytes, List.append_assoc _ (flag8 st.upload.isSome), upload_statusBytes]
  simp only [roleDate_eq, holder_isSome, StopWindows.flag8_eq, List.append_assoc]
  rfl

/-- The Tile Map's and the Panel Drive's part: counts by filtered lists, and a class byte of 0 when no job is in hand. -/
theorem panelStatusBytes_eq (s : State) :
    s.panelStatusBytes =
      b8 (s.tiles.jobs.filter fun j => j.state == .queued).length ++
      b8 (match s.tiles.jobs.find? Job.inHand with
        | none => 0
        | some j => j.cls.number) ++
      b8 s.drive.booster.number ++
      b8 (s.tiles.tiles.filter fun x => x.shown.isNone).length ++ b8 (s.tiles.tiles.filter fun x => x.clearDue).length := by
  rw [State.panelStatusBytes, TileMap.handJob, TileMap.unknownCount, TileMap.clearDueCount]
  simp only [List.countP_eq_length_filter]
  cases s.tiles.jobs.find? Job.inHand <;> rfl

/-- The Energy Account's part: VSTORE is 0xFFFF and the temperature 0x80 before the first sample. -/
theorem energy_statusBytes (e : Energy) :
    e.statusBytes =
      (match e.vs with | none => [0xFF, 0xFF] | some v => b16 v) ++ b24 e.estimate ++
      [match e.temp with | none => 0x80 | some c => BitVec.ofInt 8 c] ++
      [if e.conserve then 1 else 0, if e.lowFlag then 1 else 0] := by
  rw [Energy.statusBytes, s8_eq_ofInt, StopWindows.flag8_eq, StopWindows.flag8_eq, List.append_assoc _ [_] [_]]
  cases e.vs <;> cases e.temp <;> rfl

theorem statusData_length (s : State) : s.statusData.length = 36 := by
  simp [State.statusData, Store.statusBytes, State.panelStatusBytes, Energy.statusBytes, clock_statusBytes_length]

/-- Settles O20: the layout is that of the five parts, each in the rule's coding, one after another. -/
theorem statusReportsAndEmptiesNews : Obligations.StatusReportsAndEmptiesNews := by
  intro s r rest head kind payload
  refine ⟨exec_status_of_headIs head kind payload, statusData_length s, ?_⟩
  rw [State.statusData, clock_statusBytes, store_statusBytes, panelStatusBytes_eq, energy_statusBytes]
  simp only [List.append_assoc]
  rfl

/-! ### The board's slice and its entries (R180) -/

theorem boardReadInRange_iff (start count : Byte) :
    boardReadInRange [start, count] = true ↔
      1 ≤ start.toNat ∧ start.toNat ≤ 32 ∧ 1 ≤ count.toNat ∧ count.toNat ≤ 8 := by
  simp only [boardReadInRange, u8, List.getD_cons_zero, List.getD_cons_succ, Bool.and_eq_true, decide_eq_true_eq, and_assoc]

theorem lengthAllowed_boardRead (n : Nat) : lengthAllowed 0x0F n = true ↔ n = 2 := beq_iff_eq

/-- An absent time is the three bytes of 0x800000, a present one its two's complement (R180). -/
theorem timeBytes_eq (t : Option Int) :
    timeBytes t =
      match t with
      | none => [0x80, 0, 0]
      | some x => b24 (x % 2 ^ 24).toNat := by
  cases t <;> rfl

@[simp] theorem timeBytes_length (t : Option Int) : (timeBytes t).length = 3 := by
  cases t <;> rfl

theorem entry_bytes_length (e : Entry) : e.bytes.length = 17 := by
  simp [Entry.bytes]

/-- Settles O21, by the length and the range of the payload; an entry's layout is that of its parts. -/
theorem boardReadReportsPositions : Obligations.BoardReadReportsPositions := by
  refine ⟨fun s r rest head kind => ⟨fun length => ?_, fun start count payload => ⟨fun range => ?_, fun range => ?_⟩⟩,
    fun e => ⟨?_, entry_bytes_length e⟩⟩
  · have refused : lengthAllowed 0x0F r.payload.length = false := by
      rw [← Bool.not_eq_true, lengthAllowed_boardRead]
      exact length
    exact congrArg Host.Outcome.next (take_badLength_answered head (by rw [kind]; rfl) refused _)
  · rw [exec_boardRead_of_headIs head kind payload, if_pos ((boardReadInRange_iff start count).mpr range)]
    exact congrArg Host.Outcome.next (reply_answered (headIs_requests head) .ok _)
  · rw [exec_boardRead_of_headIs head kind payload, if_neg (mt (boardReadInRange_iff start count).mp range)]
    exact congrArg Host.Outcome.next (reply_answered (headIs_requests head) .range [])
  · rw [Entry.bytes, timeBytes_eq, timeBytes_eq, timeBytes_eq]
    rfl

/-! ### The fault records (R176) -/

theorem faultRecord_bytes_eq (f : FaultRecord) :
    f.bytes =
      [1] ++ b8 f.code.cls.code ++ b16 f.code.detail ++
        match f.stamp with
        | none => [0, 0, 0, 0, 0, 0]
        | some t => [1] ++ b16 t.date ++ b24 t.wall := by
  rw [FaultRecord.bytes]
  cases f.stamp <;> rfl

@[simp] theorem recordBytes_length (f : Option FaultRecord) : (recordBytes f).length = 10 := by
  cases f with
  | none => rfl
  | some f =>
    rw [recordBytes, faultRecord_bytes_eq]
    cases f.stamp <;> rfl

theorem lengthAllowed_faultRead (n : Nat) : lengthAllowed 0x10 n = true ↔ n = 0 := beq_iff_eq

/-- Settles O22, by the length of the payload. -/
theorem faultReadReportsRecords : Obligations.FaultReadReportsRecords := by
  refine ⟨fun s r rest head kind => ⟨fun payload => ⟨?_, ?_⟩, fun payload => ?_⟩, rfl, faultRecord_bytes_eq⟩
  · exact exec_faultRead_of_headIs head kind payload
  · simp
  · have refused : lengthAllowed 0x10 r.payload.length = false := by
      rw [← Bool.not_eq_true, lengthAllowed_faultRead, List.length_eq_zero_iff]
      exact payload
    exact congrArg Host.Outcome.next (take_badLength_answered head (by rw [kind]; rfl) refused _)

end Sys2Proof.ReadReplies
end

section
/-! PROOFS. Requests that the link refuses itself, and CONFIG_GET (12 R186, R190): the refusals of an unknown kind and of a length that
its kind does not allow, and what CONFIG_GET answers to each identifier. -/

namespace Sys2Proof.RefusalsAndConfigGet

open Sys2Proof.Machine

/-! ### Unknown kinds and bad lengths (R186) -/

theorem kindKnown_eq_false_iff (kind : Nat) : kindKnown kind = false ↔ kind = 0 ∨ 0x13 < kind := by
  rw [← Bool.not_eq_true, kindKnown, Bool.and_eq_true, decide_eq_true_eq, decide_eq_true_eq]
  omega

/-- A taken request of an unknown kind is refused with the header alone. -/
theorem exec_badKind_of_headIs {s : State} {r : Request} {rest : List Request} (h : s.headIs r rest)
    (unknown : kindKnown r.kind.toNat = false) : exec .badKind s = .next (s.reply .badKind []) := by
  obtain ⟨takes, queued⟩ := h
  simp [exec, execBadKind, queued, takes, unknown]

/-- A request's command takes its kind and does nothing else, but that it may end by taking a noted attempt. -/
theorem exec_takes_requestKind {c : Instr} {kind : Nat} (h : c.requestKind = some kind) :
    ∃ work, (∀ s, exec c s = .next (s.take kind work)) ∨ ∀ s, exec c s = .next (s.take kind work).settle := by
  cases c with
  | status => cases h; exact ⟨_, .inl fun _ => rfl⟩
  | timeSet => cases h; exact ⟨_, .inr fun _ => rfl⟩
  | configSet => cases h; exact ⟨_, .inl fun _ => rfl⟩
  | configGet => cases h; exact ⟨_, .inl fun _ => rfl⟩
  | windowSet => cases h; exact ⟨_, .inl fun _ => rfl⟩
  | uploadBegin => cases h; exact ⟨_, .inl fun _ => rfl⟩
  | tripBlock => cases h; exact ⟨_, .inl fun _ => rfl⟩
  | uploadCommit => cases h; exact ⟨_, .inl fun _ => rfl⟩
  | uploadAbort => cases h; exact ⟨_, .inl fun _ => rfl⟩
  | predict => cases h; exact ⟨_, .inr fun _ => rfl⟩
  | noticePost => cases h; exact ⟨_, .inr fun _ => rfl⟩
  | noticeWithdraw => cases h; exact ⟨_, .inr fun _ => rfl⟩
  | textPut => cases h; exact ⟨_, .inl fun _ => rfl⟩
  | glyphPut => cases h; exact ⟨_, .inl fun _ => rfl⟩
  | boardRead => cases h; exact ⟨_, .inl fun _ => rfl⟩
  | faultRead => cases h; exact ⟨_, .inl fun _ => rfl⟩
  | faultClear => cases h; exact ⟨_, .inr fun _ => rfl⟩
  | cleanNow => cases h; exact ⟨_, .inr fun _ => rfl⟩
  | reset => cases h; exact ⟨_, .inl fun _ => rfl⟩
  | _ => cases h

/-- Settles O17: an unknown kind never reaches a block, and a bad length never its kind's work, so that no attempt is noted. -/
theorem unfitRequestsAreRefused : Obligations.UnfitRequestsAreRefused := by
  refine ⟨fun s r rest head unknown => ?_, fun s c r rest head idle kind length => ?_⟩
  · rw [exec_badKind_of_headIs head ((kindKnown_eq_false_iff _).mpr unknown), reply_answered (headIs_requests head)]
    rfl
  · obtain ⟨work, unsettled | settled⟩ := exec_takes_requestKind kind
    · rw [unsettled, ReadReplies.take_badLength_answered head rfl length]
    · rw [settled, ReadReplies.take_badLength_answered head rfl length, settle_of_not_waiting (by exact idle)]

/-! ### CONFIG_GET (R190) -/

theorem paramKnown_iff (id : Nat) : paramKnown id = true ↔ 1 ≤ id ∧ id ≤ 43 := by
  rw [paramKnown, Bool.and_eq_true, decide_eq_true_eq, decide_eq_true_eq]

/-- A taken CONFIG_GET of one byte answers a parameter, a window, or RANGE alone. -/
theorem exec_configGet_of_headIs {s : State} {r : Request} {rest : List Request} (h : s.headIs r rest) (hk : r.kind = 0x04)
    {id : Byte} (hp : r.payload = [id]) :
    exec .configGet s = .next
      (if paramKnown id.toNat then s.reply .ok (s.cfg.paramData id.toNat)
      else if 50 ≤ id.toNat ∧ id.toNat ≤ 57 then
        s.reply .ok (b8 id.toNat ++ (s.cfg.window (id.toNat - 50)).bytes (id.toNat - 50))
      else s.reply .range []) := by
  have kind : r.kind.toNat = 0x04 := by rw [hk]; rfl
  have length : lengthAllowed 0x04 r.payload.length = true := by rw [hp]; rfl
  rw [exec, execConfigGet, take_work h kind length, hp]
  rfl

/-- The number of a window behind its identifier, as one byte. -/
theorem b8_windowNumber {id : Byte} (h : 50 ≤ id.toNat) : b8 (id.toNat - 50) = [id - 50] := by
  have le : (50 : Byte).toNat ≤ id.toNat := h
  refine congrArg (fun b => [b]) (BitVec.eq_of_toNat_eq ?_)
  rw [BitVec.toNat_ofNat, BitVec.toNat_sub_of_le le, Nat.mod_eq_of_lt (by omega)]
  rfl

/-- A window's settings as CONFIG_GET reports them, by the window's identifier (R55, R190). -/
theorem window_bytes_of_id (w : Window) {id : Byte} (h : 50 ≤ id.toNat) :
    b8 id.toNat ++ w.bytes (id.toNat - 50) =
      [id, id - 50, if w.enabled then 1 else 0] ++ b16 w.base.toNat ++ b16 w.mask.toNat ++
        b8 (if id.toNat ≤ 55 then w.platform.getD 255 else 255) := by
  have assigned : (id.toNat - 50 ≤ 5) = (id.toNat ≤ 55) := propext (by omega)
  rw [Window.bytes, b8_windowNumber h, StopWindows.flag8_eq, NoticeRequests.b8_toNat]
  simp only [assigned, List.append_assoc, List.cons_append, List.nil_append]

/-- Settles O54, by the three ranges of identifiers. -/
theorem configGetReportsTheValue : Obligations.ConfigGetReportsTheValue := by
  intro s r rest id head kind payload
  have answered := fun code => reply_answered (headIs_requests head) code
  refine ⟨fun low high => ?_, fun low high => ?_, fun outside => ?_⟩
  · have known : paramKnown id.toNat = true := (paramKnown_iff _).mpr ⟨low, high⟩
    rw [exec_configGet_of_headIs head kind payload, if_pos known, answered, ConfigRecord.paramData, NoticeRequests.b8_toNat]
    rfl
  · have unknown : ¬paramKnown id.toNat = true := by rw [paramKnown_iff]; omega
    rw [exec_configGet_of_headIs head kind payload, if_neg unknown, if_pos ⟨low, high⟩, answered, window_bytes_of_id _ low]
    rfl
  · have unknown : ¬paramKnown id.toNat = true := by rw [paramKnown_iff]; omega
    rw [exec_configGet_of_headIs head kind payload, if_neg unknown, if_neg (by omega), answered]
    rfl

end Sys2Proof.RefusalsAndConfigGet
end

section
/-! PROOFS. The receiver (12 R183 to R185): a frame of the length that its first byte names is gathered byte by byte and then judged
whole, and a frame formed as replies are is judged good and read back. -/

namespace Sys2Proof.ReceivedFrames

open Sys2Proof.Machine

/-! ### Bytes of a payload and numbers of two bytes (R183) -/

/-- A byte is not moved by what follows it. -/
theorem u8_append {p : List Byte} {i : Nat} (h : i < p.length) (q : List Byte) : u8 (p ++ q) i = u8 p i := by
  rw [u8, u8, List.getD_eq_getElem?_getD, List.getD_eq_getElem?_getD, List.getElem?_append_left h]

/-- A number of two bytes is read back behind whatever stands before it. -/
theorem u16_append_b16 (p : List Byte) (n : Nat) : u16 (p ++ b16 n) p.length = n % 65536 := by
  have high : u8 (p ++ b16 n) p.length = n / 256 % 256 := by simp [u8, b16, b8]
  have low : u8 (p ++ b16 n) (p.length + 1) = n % 256 := by simp [u8, b16, b8]
  rw [u16, high, low]
  omega

/-! ### A frame gathered byte by byte (R184) -/

theorem receiveBytes_append (s : State) (p q : List Byte) :
    s.receiveBytes (p ++ q) = (s.receiveBytes p).receiveBytes q := by
  induction p generalizing s with
  | nil => rfl
  | cons b p ih => exact ih _

/-- In HUNT the marker starts a frame. -/
theorem receiveByte_marker {s : State} (h : s.link.receiver = .hunt) : s.receiveByte 0xA5 = s.setReceiver (.frame []) := by
  simp [State.receiveByte, h]

theorem setReceiver_of_receiver {s : State} {x : Receiver} (h : s.link.receiver = x) : s.setReceiver x = s := by
  subst h
  rfl

theorem frameComplete_iff (p : List Byte) : frameComplete p = true ↔ p.length = u8 p 0 + 5 := by
  rw [frameComplete, Bool.and_eq_true, decide_eq_true_eq, beq_iff_eq]
  omega

/-- A byte short of the frame's end is gathered. -/
theorem receiveByte_gathers (s : State) {p : List Byte} {b : Byte} (fits : u8 (p ++ [b]) 0 ≤ 240)
    (short : (p ++ [b]).length < u8 (p ++ [b]) 0 + 5) :
    (s.setReceiver (.frame p)).receiveByte b = s.setReceiver (.frame (p ++ [b])) := by
  have incomplete : ¬frameComplete (p ++ [b]) = true := mt (frameComplete_iff _).mp (Nat.ne_of_lt short)
  exact (if_neg (Nat.not_lt.mpr fits)).trans (if_neg incomplete)

/-- The byte that ends a frame ends it, and the frame is judged whole. -/
theorem receiveByte_completes (s : State) {p : List Byte} {b : Byte} (fits : u8 (p ++ [b]) 0 ≤ 240)
    (whole : (p ++ [b]).length = u8 (p ++ [b]) 0 + 5) :
    (s.setReceiver (.frame p)).receiveByte b =
      if frameGood (p ++ [b]) then (s.setReceiver .hunt).handFrame (frameRequest (p ++ [b])) else s.setReceiver .hunt :=
  (if_neg (Nat.not_lt.mpr fits)).trans (if_pos ((frameComplete_iff _).mpr whole))

/-- Bytes that stop short of the frame's end are all gathered. -/
theorem receiveBytes_gathers (s : State) (p q : List Byte) (fits : u8 (p ++ q) 0 ≤ 240)
    (short : (p ++ q).length < u8 (p ++ q) 0 + 5) :
    (s.setReceiver (.frame p)).receiveBytes q = s.setReceiver (.frame (p ++ q)) := by
  induction q generalizing p with
  | nil => rw [List.append_nil]; rfl
  | cons b q ih =>
    have split : p ++ b :: q = (p ++ [b]) ++ q := by simp
    have first : u8 ((p ++ [b]) ++ q) 0 = u8 (p ++ [b]) 0 := u8_append (by simp) q
    rw [split] at fits short ⊢
    have shorter : (p ++ [b]).length < u8 (p ++ [b]) 0 + 5 := by
      rw [first, List.length_append] at short
      omega
    rw [State.receiveBytes, receiveByte_gathers s (first ▸ fits) shorter, ih _ fits short]

/-- A whole frame after its marker: its bytes are gathered up to the last, which ends it. -/
theorem receiveBytes_whole (s : State) {bytes : List Byte} (fits : u8 bytes 0 ≤ 240) (whole : bytes.length = u8 bytes 0 + 5) :
    (s.setReceiver (.frame [])).receiveBytes bytes =
      if frameGood bytes then (s.setReceiver .hunt).handFrame (frameRequest bytes) else s.setReceiver .hunt := by
  obtain rfl | ⟨front, last, rfl⟩ := List.eq_nil_or_concat bytes
  · cases whole
  · rw [List.concat_eq_append] at fits whole ⊢
    have long : 0 < front.length := by
      rw [List.length_append, List.length_singleton] at whole
      omega
    have first : u8 (front ++ [last]) 0 = u8 front 0 := u8_append long _
    have short : front.length < u8 front 0 + 5 := by
      rw [first, List.length_append, List.length_singleton] at whole
      omega
    rw [receiveBytes_append, receiveBytes_gathers s [] front (first ▸ fits) short]
    exact receiveByte_completes s fits whole

/-- A whole frame that arrives in HUNT is handed on when its check is good, and else leaves no trace (R184). -/
theorem exec_frameReceived_whole {s : State} (powered : s.powered = true) (hunt : s.link.receiver = .hunt) {bytes : List Byte}
    (fits : u8 bytes 0 ≤ 240) (whole : bytes.length = u8 bytes 0 + 5) :
    exec (.frameReceived (0xA5 :: bytes)) s = .next (if frameGood bytes then s.handFrame (frameRequest bytes) else s) := by
  have received : s.receiveBytes (0xA5 :: bytes) = (s.setReceiver (.frame [])).receiveBytes bytes :=
    congrArg (State.receiveBytes · bytes) (receiveByte_marker hunt)
  rw [exec, execFrameReceived, if_pos powered, received, receiveBytes_whole s fits whole, setReceiver_of_receiver hunt]

/-- Settles O16: a gap and a framing error only put the receiver back in HUNT, by their meaning. -/
theorem badFramesLeaveNoTrace : Obligations.BadFramesLeaveNoTrace := by
  refine ⟨fun s bytes powered hunt fits whole differs => ?_, fun s => ⟨rfl, rfl, fun powered hunt => ?_⟩⟩
  · have bad : ¬frameGood bytes = true := by rw [frameGood, beq_iff_eq]; exact differs
    rw [exec_frameReceived_whole powered hunt fits whole, if_neg bad]
  · rw [exec, execFrameReceived, if_pos powered, State.receiveBytes, receiveByte_marker hunt]
    rfl

/-! ### A frame read back (R183) -/

/-- What stands between a frame's marker and its check: length, kind, tag and payload. -/
def checkedPart (r : Reply) : List Byte := b8 r.payload.length ++ [r.kind, r.tag] ++ r.payload

theorem frame_eq (r : Reply) : r.frame = 0xA5 :: (checkedPart r ++ b16 (crc16 (checkedPart r)).toNat) := rfl

theorem checkedPart_length (r : Reply) : (checkedPart r).length = r.payload.length + 3 := by
  simp [checkedPart, b8]

/-- The first byte of a frame names the length of its payload. -/
theorem u8_checkedPart {r : Reply} (h : r.payload.length ≤ 240) (q : List Byte) :
    u8 (checkedPart r ++ q) 0 = r.payload.length :=
  (BitVec.toNat_ofNat _ 8).trans (Nat.mod_eq_of_lt (by omega))

/-- A check computed over the bytes before it is good. -/
theorem frameGood_of_check (p : List Byte) : frameGood (p ++ b16 (crc16 p).toNat) = true := by
  have length : (p ++ b16 (crc16 p).toNat).length - 2 = p.length := by simp
  rw [frameGood, length, List.take_left, u16_append_b16, Nat.mod_eq_of_lt (crc16 p).isLt, beq_self_eq_true]

/-- The request that a frame carries is read back from it. -/
theorem frameRequest_checkedPart {r : Reply} (h : r.payload.length ≤ 240) (q : List Byte) :
    frameRequest (checkedPart r ++ q) = ⟨r.kind, r.tag, r.payload⟩ := by
  have payload : ((checkedPart r ++ q).drop 3).take r.payload.length = r.payload := List.take_left
  rw [frameRequest, u8_checkedPart h, payload]
  rfl

/-- A good frame that arrives in HUNT is handed on as the request it carries. -/
theorem exec_frameReceived_good {s : State} {r : Reply} (powered : s.powered = true) (hunt : s.link.receiver = .hunt)
    (fits : r.payload.length ≤ 240) :
    exec (.frameReceived r.frame) s = .next (s.handFrame ⟨r.kind, r.tag, r.payload⟩) := by
  have named := u8_checkedPart fits (b16 (crc16 (checkedPart r)).toNat)
  have whole : (checkedPart r ++ b16 (crc16 (checkedPart r)).toNat).length = r.payload.length + 5 := by
    rw [List.length_append, checkedPart_length]
    rfl
  rw [frame_eq, exec_frameReceived_whole powered hunt (named.symm ▸ fits) (named.symm ▸ whole),
    if_pos (frameGood_of_check _), frameRequest_checkedPart fits]

/-- Settles O15, by what becomes of a request that is handed on. -/
theorem goodFrameIsQueuedOrAnswered : Obligations.GoodFrameIsQueuedOrAnswered := by
  intro s r powered hunt fits
  rw [exec_frameReceived_good powered hunt fits]
  refine ⟨fun free => ?_, fun full => ?_⟩
  · rw [State.handFrame, if_pos free]
  · rw [State.handFrame, if_neg (Nat.not_lt.mpr full), State.replyQueueFull, replyTo, StopWindows.flag8_eq]
    rfl

end Sys2Proof.ReceivedFrames
end

section
/-! PROOFS. The queue of commands and the request queue (95; 12 R185, R186): a step executes the front command, every command answers a
next state and leaves the queue of commands alone, and the request queue grows only by a frame that finds room. -/

namespace Sys2Proof.Queues

open Sys2Proof.Machine

/-- Settles O1: the step is the dispatch on the front command, by its definition. -/
theorem stepExecutesFrontCommand : Obligations.StepExecutesFrontCommand :=
  ⟨fun _ _ _ => rfl, fun s empty => by rw [step, empty]⟩

/-! ### What a piece of work keeps -/

/-- From `s` to `t` the queue of commands is as it was, and the request queue stays within its 8 places. -/
structure Kept (s t : State) : Prop where
  commands : t.pending = s.pending
  requests : s.link.sound → t.link.sound

/-- The two queues. -/
def queuesOf (s : State) : List Instr × List Request := (s.pending, s.link.requests)

theorem Kept.refl (s : State) : Kept s s := ⟨rfl, id⟩

theorem Kept.trans {s t u : State} (h : Kept s t) (k : Kept t u) : Kept s u :=
  ⟨k.commands.trans h.commands, k.requests ∘ h.requests⟩

/-- Work on other fields alone. -/
theorem Kept.of_same {s t : State} (h : queuesOf t = queuesOf s) : Kept s t := by
  obtain ⟨commands, requests⟩ := Prod.mk.inj h
  exact ⟨commands, fun sound => Nat.le_trans (Nat.le_of_eq (congrArg List.length requests)) sound⟩

/-- The same work begun after a change of other fields alone. -/
theorem Kept.from {s u t : State} (h : Kept u t) (e : queuesOf u = queuesOf s) : Kept s t := (Kept.of_same e).trans h

/-- Work that ends with no request waiting. -/
theorem Kept.of_empty {s t : State} (commands : t.pending = s.pending) (empty : t.link.requests = []) : Kept s t :=
  ⟨commands, fun _ => Nat.le_trans (Nat.le_of_eq (congrArg List.length empty)) (Nat.zero_le 8)⟩

/-- Work towards the panel. -/
theorem Kept.panel {s t : State} (h : PanelWork s t) : Kept s t :=
  .of_same (Prod.ext h.pending (congrArg Link.requests h.link))

/-- Work on the board. -/
theorem Kept.board {s t : State} (h : BoardWork s t) : Kept s t := by
  rw [h.others]
  exact .of_same rfl

theorem Kept.ite {s t u : State} {c : Prop} [Decidable c] (h : c → Kept s t) (k : ¬c → Kept s u) :
    Kept s (if c then t else u) := by
  split
  · exact h ‹_›
  · exact k ‹_›

/-- Every command that may bring a grant attempt ends so (R149). -/
theorem Kept.settle {s t : State} (h : Kept s t) : Kept s t.settle := h.trans (.panel (settle_panelWork t))

theorem raise_kept (s : State) (c : FaultCode) : Kept s (s.raise c) := .of_same rfl

theorem addNews_kept (s : State) (i : NewsItem) : Kept s (s.addNews i) := .of_same rfl

theorem setDrive_kept (s : State) (d : Drive) : Kept s (s.setDrive d) := .of_same rfl

/-! ### Requests and replies (R185, R186) -/

/-- A frame joins the request queue only where it finds room (R185). -/
theorem handFrame_kept (s : State) (r : Request) : Kept s (s.handFrame r) := by
  refine .ite (fun room => ⟨rfl, fun _ => ?_⟩) fun _ => .of_same rfl
  rw [Link.sound, List.length_append]
  exact room

theorem receiveByte_kept (s : State) (b : Byte) : Kept s (s.receiveByte b) := by
  unfold State.receiveByte
  split
  · exact .ite (fun _ => .of_same rfl) fun _ => .refl s
  · exact .ite (fun _ => .of_same rfl) fun _ =>
      .ite (fun _ => .ite (fun _ => Kept.from (handFrame_kept _ _) rfl) fun _ => .of_same rfl) fun _ => .of_same rfl

theorem receiveBytes_kept (l : List Byte) (s : State) : Kept s (s.receiveBytes l) := by
  induction l generalizing s with
  | nil => exact .refl s
  | cons b l ih => exact (receiveByte_kept s b).trans (ih _)

/-- An answered request leaves the request queue (R186). -/
theorem reply_kept (s : State) (e : Result) (d : List Byte) : Kept s (s.reply e d) := by
  cases queued : s.link.requests with
  | nil =>
    have idle : s.reply e d = s := by rw [State.reply, queued]
    rw [idle]
    exact .refl s
  | cons r rest =>
    rw [reply_answered queued]
    refine ⟨rfl, fun sound => ?_⟩
    rw [Link.sound, queued] at sound
    exact Nat.le_of_succ_le sound

theorem eitherOrder_kept (s : State) {f g : State → State} (hf : ∀ u, Kept u (f u)) (hg : ∀ u, Kept u (g u)) :
    Kept s (s.eitherOrder f g) := by
  obtain ⟨l, e | e⟩ := eitherOrder_cases s f g <;> rw [e]
  · exact Kept.from ((hg _).trans (hf _)) rfl
  · exact Kept.from ((hf _).trans (hg _)) rfl

/-- A reply and other work, in either order. -/
theorem answered_kept (s : State) (e : Result) (data : State → List Byte) {work : State → State} (h : ∀ u, Kept u (work u)) :
    Kept s (s.eitherOrder (fun t => t.reply e (data t)) work) := eitherOrder_kept s (fun u => reply_kept u _ _) h

theorem take_kept {s : State} (kind : Nat) {f : List Byte → State → State} (h : ∀ p, Kept s (f p s)) :
    Kept s (s.take kind f) := by
  obtain e | e | ⟨r, -, -, -, -, e⟩ := take_cases s kind f <;> rw [e]
  · exact .refl s
  · exact reply_kept s _ _
  · exact h _

theorem storeFail_kept (s : State) (d : List Byte) : Kept s (s.storeFail d) := answered_kept s _ _ fun u => raise_kept u _

theorem failConfig_kept (s : State) (d : List Byte) : Kept s (s.failConfig d) := Kept.from (storeFail_kept _ _) rfl

theorem failBegin_kept (s : State) (i : BankId) : Kept s (s.failBegin i) := Kept.from (storeFail_kept _ _) rfl

/-! ### Recompositions, banks and notices -/

theorem recompose_kept (s : State) (b : Bands) : Kept s (s.recompose b) := .panel (recompose_panelWork s b)

theorem attempt_kept (s : State) : Kept s s.attempt := .panel (attempt_panelWork s)

theorem returnGranted_kept (s : State) : Kept s s.returnGranted := .panel (returnGranted_panelWork s)

theorem rebuildBoard_kept (s : State) : Kept s s.rebuildBoard := (Kept.board (rebuild_boardWork s)).trans (recompose_kept _ _)

theorem selectBanks_kept (s : State) : Kept s s.selectBanks := by
  unfold State.selectBanks
  split
  · exact .refl s
  · exact .ite (fun _ => .of_same rfl) fun _ => .of_same rfl

theorem touchUpload_kept (s : State) : Kept s s.touchUpload := .ite (fun _ => .of_same rfl) fun _ => .refl s

theorem afterCommit_kept (s : State) (before : Option BankId) {answer : State → State} (h : ∀ u, Kept u (answer u)) :
    Kept s (s.afterCommit before answer) :=
  (selectBanks_kept s).trans <| .ite (fun _ => h _) fun _ =>
    (Kept.board (rebuild_boardWork _)).trans (eitherOrder_kept _ h fun u => recompose_kept u _)

theorem noticeChange_kept (s : State) (l : List Notice) {answer : State → State} (h : ∀ u, Kept u (answer u)) :
    Kept s (s.noticeChange l answer) :=
  Kept.from (eitherOrder_kept _ h fun u => .ite (fun _ => recompose_kept u _) fun _ => .refl u) rfl

theorem expireNotices_kept (s : State) : Kept s s.expireNotices := by
  unfold State.expireNotices
  split
  · exact .refl s
  · exact .ite (fun _ => Kept.from (recompose_kept _ _) rfl) fun _ => .of_same rfl

/-! ### Events at the Panel Drive (R161 to R167, R192) -/

theorem takeBrownout_kept (s : State) : Kept s s.takeBrownout := Kept.from (.panel (takeBrownout_panelWork s)) rfl

theorem takeSupplyRise_kept (s : State) : Kept s s.takeSupplyRise := Kept.from (.panel (takeSupplyRise_panelWork s)) rfl

theorem endCutFrame_kept (s : State) : Kept s s.endCutFrame := by
  have ended : Kept s (if s.drive.brownedOut then
      s.setDrive (Drive.lowered { s.drive with cutFrame := false, brownedOut := false })
    else { s with
      drive := Drive.raised { s.drive with cutFrame := false, brownedOut := false }
      timers := s.timers.startLinger }) := .ite (fun _ => .of_same rfl) fun _ => .of_same rfl
  have raised := ended.trans (raise_kept _ .drive312)
  exact .ite (fun _ => raised.trans (.panel (meetBooster_panelWork _))) fun _ => raised

theorem abortDrive_kept (s : State) : Kept s s.abortDrive := by
  unfold State.abortDrive
  split
  · exact .refl s
  · exact Kept.from ((attempt_kept _).trans (raise_kept _ _)) rfl

theorem completeDrive_kept (s : State) : Kept s s.completeDrive := by
  unfold State.completeDrive
  split
  · exact .refl s
  · exact Kept.from (attempt_kept _) rfl

theorem takeFrameEnd_kept (s : State) : Kept s s.takeFrameEnd :=
  .ite (fun _ => .refl s) fun _ => .ite (fun _ => endCutFrame_kept s) fun _ =>
    .ite (fun _ => Kept.from (abortDrive_kept _) rfl) fun _ =>
      .ite (fun _ => Kept.from (completeDrive_kept _) rfl) fun _ => .of_same rfl

theorem resetDrive_kept (s : State) : Kept s s.resetDrive := by
  unfold State.resetDrive
  cases s.drive.booster <;> exact .of_same rfl

/-- A request reset discards the waiting requests (R192). -/
theorem takeRequestReset_kept (s : State) : Kept s s.takeRequestReset := by
  have blocks : Kept s s.resetBlocks := by
    refine Kept.trans ?_ (resetDrive_kept _)
    exact .of_empty rfl rfl
  exact blocks.trans <| (Kept.board (rebuildFrom_boardWork _ _)).trans <|
    (Kept.panel (takeTiles_panelWork _ _ (requestReset_elapsed _ _))).trans <|
    (recompose_kept _ _).trans (recompose_kept _ _)

theorem driveEvent_kept (s : State) (e : DriveEvent) : Kept s (s.driveEvent e) := by
  refine .ite (fun _ => .of_same rfl) fun _ => ?_
  cases e with
  | brownout => exact takeBrownout_kept s
  | supplyRise => exact takeSupplyRise_kept s
  | lingerExpiry => exact .ite (fun _ => .of_same rfl) fun _ => .refl s
  | frameEnd => exact takeFrameEnd_kept s
  | requestReset => exact takeRequestReset_kept s

theorem driveEvents_kept (l : List DriveEvent) (s : State) : Kept s (s.driveEvents l) := by
  induction l generalizing s with
  | nil => exact .refl s
  | cons e l ih => exact (driveEvent_kept s e).trans (ih _)

theorem moveLevel_kept (s : State) (above : Bool) : Kept s (s.moveLevel above) := by
  obtain ⟨-, e⟩ | ⟨-, e⟩ := moveLevel_cases s above <;> rw [e]
  · exact .refl s
  · exact driveEvent_kept s _

theorem seeVoltage_kept (s : State) (mv : Int) : Kept s (s.seeVoltage mv) :=
  .ite (fun _ => .refl s) fun _ => moveLevel_kept s _

theorem failRise_kept (s : State) : Kept s s.failRise :=
  Kept.from ((returnGranted_kept _).trans <| (raise_kept _ _).trans (attempt_kept _)) rfl

/-! ### The identity exchange (R170, R171, R194) -/

theorem raiseIdentity_kept (s : State) (fault : Option FaultCode) : Kept s (s.raiseIdentity fault) :=
  .panel (StartUpEnd.raiseIdentity_panelWork s fault)

theorem decideClean_kept (s : State) (fault : Option FaultCode) : Kept s (s.decideClean fault) :=
  .ite (fun _ => (returnGranted_kept s).trans (attempt_kept _)) fun _ =>
    .ite (fun _ => .panel (meetBooster_panelWork s)) fun _ => .refl s

theorem takeHeldFirst_kept (s : State) : Kept s s.takeHeldFirst :=
  Kept.from ((driveEvents_kept _ _).trans (.of_same rfl)) rfl

theorem endCleanExchange_kept (s : State) (fault : Option FaultCode) : Kept s (s.endCleanExchange fault) :=
  (raiseIdentity_kept s fault).trans <| .ite (fun _ => decideClean_kept _ _) fun _ =>
    .ite (fun _ => (Kept.panel (choose_panelWork _)).trans ((takeHeldFirst_kept _).trans (decideClean_kept _ _))) fun _ =>
      (Kept.panel (choose_panelWork _)).trans (decideClean_kept _ _)

theorem endStartUp_kept (s : State) (fault : Option FaultCode) : Kept s (s.endStartUp fault) :=
  (raiseIdentity_kept s fault).trans <| Kept.from ((attempt_kept _).trans <| (raise_kept _ _).trans (addNews_kept _ _)) rfl

theorem releaseHeld_kept (s : State) : Kept s s.releaseHeld := Kept.from (driveEvents_kept _ _) rfl

/-! ### Samples and start-up (R137, R194) -/

theorem judgeConserve_kept (s : State) (vs : Nat) : Kept s (s.judgeConserve vs) :=
  .ite (fun _ => .ite (fun _ => .of_same rfl) fun _ => .ite (fun _ => .of_same rfl) fun _ => .refl s) fun _ =>
    .ite (fun _ => .of_same rfl) fun _ => .refl s

theorem sampleOwn_kept (s : State) (mv c : Int) : Kept s (s.sampleOwn mv c) := Kept.from (judgeConserve_kept _ _) rfl

theorem tempFault_kept (s : State) (c : Int) : Kept s (s.tempFault c) :=
  .ite (fun _ => raise_kept s _) fun _ => .ite (fun _ => raise_kept s _) fun _ => .refl s

theorem handConserve_kept (s : State) (was : Bool) : Kept s (s.handConserve was) :=
  .ite (fun _ => .refl s) fun _ =>
    .ite (fun _ => (recompose_kept s _).trans (.panel (noteAttempt_panelWork _))) fun _ => recompose_kept s _

theorem sample_kept (s : State) (mv c : Int) : Kept s (s.sample mv c) :=
  (sampleOwn_kept s mv c).trans <|
    (eitherOrder_kept _ (fun u => handConserve_kept u _) fun u => tempFault_kept u c).trans (.panel (noteAttempt_panelWork _))

theorem loadConfig_kept (s : State) : Kept s s.loadConfig := .ite (fun _ => .of_same rfl) fun _ => .of_same rfl

theorem checkBank_kept (s : State) (i : BankId) (f : FaultCode) : Kept s (s.checkBank i f) :=
  .ite (fun _ => .of_same rfl) fun _ => .of_same rfl

theorem checkTables_kept (s : State) : Kept s s.checkTables := Kept.from (.panel (raiseAll_panelWork _ _)) rfl

theorem firstSample_kept (s : State) (mv c : Int) : Kept s (s.firstSample mv c) :=
  (seeVoltage_kept s mv).trans <| (sampleOwn_kept _ _ _).trans <| (tempFault_kept _ _).trans (.of_same rfl)

theorem firstImage_kept (s : State) : Kept s s.firstImage :=
  .panel ((compose_panelWork s _).trans (formAll_panelWork _ _))

theorem startUp_kept (s : State) (br1 br0 above : Bool) (mv c : Int) : Kept s (s.startUp br1 br0 above mv c) :=
  Kept.from ((loadConfig_kept _).trans <| (checkBank_kept _ _ _).trans <| (checkBank_kept _ _ _).trans <|
    (checkTables_kept _).trans <| (firstSample_kept _ _ _).trans <| (firstImage_kept _).trans (setDrive_kept _ _)) rfl

/-- A reset of every block empties the request queue, and the queue of commands carries on (R193). -/
theorem dropped_kept (s : State) (phase : Phase) (cause : ResetCause) : Kept s (s.dropped phase cause) := .of_empty rfl rfl

/-! ### The clock and the owners of parameters -/

theorem timeEffects_kept (s : State) (c : TimeCase) : Kept s (s.timeEffects c) := by
  cases c with
  | firstSet => exact (selectBanks_kept s).trans (rebuildBoard_kept _)
  | dateChange => exact (selectBanks_kept s).trans (rebuildBoard_kept _)
  | jump => exact (rebuildBoard_kept s).trans (raise_kept _ _)
  | adjust => exact .refl s

theorem rollover_kept (s : State) : Kept s s.rollover :=
  Kept.from ((selectBanks_kept _).trans <| (Kept.board (refill_boardWork _)).trans <|
    (recompose_kept _ _).trans (addNews_kept _ _)) rfl

theorem minuteTick_kept (s : State) (minute : Nat) : Kept s (s.minuteTick minute) := by
  have clean (u : State) : Kept u (u.dailyClean minute) := .ite (fun _ => .panel (queueFullClean_panelWork u)) fun _ => .refl u
  have light (u : State) : Kept u (u.frontlightMatch minute) :=
    .ite (fun _ => .of_same rfl) fun _ => .ite (fun _ => .of_same rfl) fun _ => .refl u
  exact (Kept.board (refill_boardWork s)).trans <| (recompose_kept _ _).trans <| (clean _).trans (light _)

theorem secondEvent_kept (s : State) (t : ClockTime) : Kept s (s.secondEvent t) := by
  have rolled : Kept s (if t.second = 86399 then State.rollover { s with clock := ⟨some t.tick, 0⟩ }
      else { s with clock := ⟨some t.tick, 0⟩ }) :=
    .ite (fun _ => Kept.from (rollover_kept _) rfl) fun _ => .of_same rfl
  exact .ite (fun _ => rolled.trans (minuteTick_kept _ _)) fun _ => rolled

/-- Whatever a parameter's owner does with its new value (R188). -/
theorem handParam_kept (s : State) (id old : Nat) : Kept s (s.handParam id old) := by
  have sized : Kept s (if s.sizeDiffers then s.queueFullClean else s) :=
    .ite (fun _ => .panel (queueFullClean_panelWork s)) fun _ => .refl s
  unfold State.handParam
  split
  · exact sized
  · exact sized
  · exact recompose_kept s _
  · exact .ite (fun _ => .refl s) fun _ => Kept.from (recompose_kept _ _) rfl
  · exact .ite (fun _ => .refl s) fun _ => Kept.from (recompose_kept _ _) rfl
  · exact recompose_kept s _
  · exact recompose_kept s _
  · exact recompose_kept s _
  · exact recompose_kept s _
  · exact recompose_kept s _
  · exact recompose_kept s _
  · exact recompose_kept s _
  · exact .of_same rfl
  · exact .panel (takeTiles_panelWork s _ (newLimit_elapsed _ _ _ _))
  · exact Kept.from (seeVoltage_kept s.fresh.2 _) rfl
  · exact .of_same rfl
  · exact .of_same rfl
  · exact .of_same rfl
  · exact .of_same rfl
  · exact .of_same rfl
  · exact .refl s

/-! ### The commands -/

/-- A next state is answered, and the queues are kept in it. -/
def Keeps (s : State) (o : Host.Outcome State Fault Refusal) : Prop := ∃ t, o = .next t ∧ Kept s t

theorem Keeps.next {s t : State} (h : Kept s t) : Keeps s (.next t) := ⟨t, rfl, h⟩

theorem execBadKind_keeps (s : State) : Keeps s (execBadKind s) := by
  refine .next ?_
  split
  · exact .refl s
  · exact .ite (fun _ => reply_kept s _ _) fun _ => .refl s

theorem execTimeSet_keeps (s : State) : Keeps s (execTimeSet s) :=
  .next <| Kept.settle <| take_kept _ fun _ =>
    .ite (fun _ => Kept.from ((timeEffects_kept _ _).trans (answered_kept _ _ _ fun u => recompose_kept u _)) rfl)
      fun _ => reply_kept s _ _

theorem execConfigSet_keeps (s : State) : Keeps s (execConfigSet s) :=
  .next <| take_kept _ fun _ =>
    .ite (fun _ => .ite (fun _ => .of_same rfl) fun _ => reply_kept s _ _) fun _ => reply_kept s _ _

theorem execConfigWriteEnd_keeps (verified : Bool) (s : State) : Keeps s (execConfigWriteEnd verified s) := by
  refine .next ?_
  split
  · exact .ite (fun _ => Kept.settle <| Kept.from (answered_kept _ _ _ fun u => handParam_kept u _ _) rfl) fun _ =>
      failConfig_kept s _
  · exact .refl s

theorem execConfigGet_keeps (s : State) : Keeps s (execConfigGet s) :=
  .next <| take_kept _ fun _ =>
    .ite (fun _ => reply_kept s _ _) fun _ => .ite (fun _ => reply_kept s _ _) fun _ => reply_kept s _ _

theorem execWindowSet_keeps (s : State) : Keeps s (execWindowSet s) :=
  .next <| take_kept _ fun _ =>
    .ite (fun _ => .of_same rfl) fun _ => .ite (fun _ => reply_kept s _ _) fun _ => reply_kept s _ _

theorem execWindowWriteEnd_keeps (verified : Bool) (s : State) : Keeps s (execWindowWriteEnd verified s) := by
  refine .next ?_
  split
  · exact .ite (fun _ => Kept.from (reply_kept _ _ _) rfl) fun _ => failConfig_kept s _
  · exact .refl s

theorem execUploadBegin_keeps (s : State) : Keeps s (execUploadBegin s) :=
  .next <| take_kept _ fun _ => (touchUpload_kept s).trans <|
    .ite (fun _ => reply_kept _ _ _) fun _ => .ite (fun _ => .of_same rfl) fun _ => reply_kept _ _ _

theorem execBankEraseEnd_keeps (verified : Bool) (s : State) : Keeps s (execBankEraseEnd verified s) := by
  refine .next ?_
  split
  · exact .ite (fun _ => .of_same rfl) fun _ => Kept.from (failBegin_kept _ _) rfl
  · exact .refl s

theorem execFillingHeaderWriteEnd_keeps (verified : Bool) (s : State) :
    Keeps s (execFillingHeaderWriteEnd verified s) := by
  refine .next ?_
  split
  · exact .ite (fun _ => Kept.from (reply_kept _ _ _) rfl) fun _ => Kept.from (failBegin_kept _ _) rfl
  · exact .refl s

theorem execTripBlock_keeps (s : State) : Keeps s (execTripBlock s) := by
  refine .next <| take_kept _ fun _ => (touchUpload_kept s).trans ?_
  dsimp only
  split
  · exact reply_kept _ _ _
  · split
    · exact reply_kept _ _ _
    · exact .of_same rfl

theorem execTripBlockWriteEnd_keeps (verified : Bool) (s : State) : Keeps s (execTripBlockWriteEnd verified s) := by
  refine .next ?_
  split
  · exact .ite (fun _ => Kept.from (reply_kept _ _ _) rfl) fun _ => Kept.from (storeFail_kept _ _) rfl
  · exact .refl s

theorem execUploadCommit_keeps (s : State) : Keeps s (execUploadCommit s) := by
  refine .next <| take_kept _ fun _ => (touchUpload_kept s).trans ?_
  dsimp only
  split
  · exact reply_kept _ _ _
  · exact .ite (fun _ => .of_same rfl) fun _ => reply_kept _ _ _

theorem execCommitHeaderWriteEnd_keeps (verified : Bool) (s : State) :
    Keeps s (execCommitHeaderWriteEnd verified s) := by
  refine .next ?_
  split
  · exact .ite (fun _ => Kept.settle <| Kept.from (afterCommit_kept _ _ fun u => reply_kept u _ _) rfl) fun _ =>
      Kept.from (storeFail_kept _ _) rfl
  · exact .refl s

theorem execUploadAbort_keeps (s : State) : Keeps s (execUploadAbort s) :=
  .next <| take_kept _ fun _ => .ite (fun _ => Kept.from (reply_kept _ _ _) rfl) fun _ => reply_kept s _ _

theorem execPredict_keeps (s : State) : Keeps s (execPredict s) :=
  .next <| Kept.settle <| take_kept _ fun _ =>
    .ite (fun _ => (Kept.board (intakeAll_boardWork _ s)).trans <| answered_kept _ _ _ fun u =>
      .ite (fun _ => recompose_kept u _) fun _ => .refl u) fun _ => reply_kept s _ _

theorem execNoticePost_keeps (s : State) : Keeps s (execNoticePost s) := by
  refine .next <| Kept.settle <| take_kept _ fun _ => ?_
  split
  · exact reply_kept s _ _
  · exact noticeChange_kept s _ fun u => reply_kept u _ _

theorem execNoticeWithdraw_keeps (s : State) : Keeps s (execNoticeWithdraw s) :=
  .next <| Kept.settle <| take_kept _ fun _ =>
    .ite (fun _ => reply_kept s _ _) fun _ =>
      .ite (fun _ => noticeChange_kept s _ fun u => reply_kept u _ _) fun _ => reply_kept s _ _

theorem execTextWriteEnd_keeps (verified : Bool) (s : State) : Keeps s (execTextWriteEnd verified s) := by
  refine .next ?_
  split
  · exact Kept.settle <| .ite (fun _ => Kept.from (answered_kept _ _ _ fun u => recompose_kept u _) rfl) fun _ =>
      Kept.from (eitherOrder_kept _ (fun u => storeFail_kept u _) fun u => recompose_kept u _) rfl
  · exact .refl s

theorem execGlyphWriteEnd_keeps (verified : Bool) (s : State) : Keeps s (execGlyphWriteEnd verified s) := by
  refine .next ?_
  split
  · exact Kept.settle <| .ite (fun _ => Kept.from (answered_kept _ _ _ fun u => recompose_kept u _) rfl) fun _ =>
      Kept.from (eitherOrder_kept _ (fun u => storeFail_kept u _) fun u => recompose_kept u _) rfl
  · exact .refl s

theorem execFaultClear_keeps (s : State) : Keeps s (execFaultClear s) :=
  .next <| Kept.settle <| take_kept _ fun _ =>
    Kept.from (answered_kept _ _ _ fun u => .ite (fun _ => .panel (noteAttempt_panelWork u)) fun _ => .refl u) rfl

theorem execCleanNow_keeps (s : State) : Keeps s (execCleanNow s) :=
  .next <| Kept.settle <| take_kept _ fun _ =>
    .ite (fun _ => Kept.from (answered_kept _ _ _ fun u => .panel (noteAttempt_panelWork u)) rfl) fun _ => reply_kept s _ _

theorem execSecondEvent_keeps (s : State) : Keeps s (execSecondEvent s) := by
  refine .next ?_
  split
  · exact .refl s
  · exact (secondEvent_kept s _).settle

theorem execSweep_keeps (s : State) : Keeps s (execSweep s) := by
  have swept (u : State) : Kept u u.sweepBoard := .ite (fun _ => .of_same rfl) fun _ => .refl u
  exact .next <| .ite (fun _ => Kept.settle <| Kept.from ((swept _).trans <|
    (recompose_kept _ _).trans (expireNotices_kept _)) rfl) fun _ => .refl s

theorem execSupplySample_keeps (mv c : Int) (s : State) : Keeps s (execSupplySample mv c s) :=
  .next <| .ite (fun _ => Kept.settle <| Kept.from ((seeVoltage_kept _ _).trans (sample_kept _ _ _)) rfl)
    fun _ => .refl s

theorem execRotation_keeps (s : State) : Keeps s (execRotation s) := by
  unfold execRotation
  split
  · dsimp only
    split
    · exact .next <| Kept.settle <| Kept.from (recompose_kept _ _) rfl
    · exact .next (.of_same rfl)
  · exact .next (.refl s)

theorem execRiseExpiry_keeps (bgood : Bool) (s : State) : Keeps s (execRiseExpiry bgood s) :=
  .next <| .ite (fun _ => .ite (fun _ => Kept.from (.panel (startDrive_panelWork _)) rfl) fun _ =>
    .ite (fun _ => .of_same rfl) fun _ => Kept.from (failRise_kept _) rfl) fun _ => .refl s

theorem execLingerExpiry_keeps (s : State) : Keeps s (execLingerExpiry s) :=
  .next <| .ite (fun _ => Kept.settle <| Kept.from (driveEvent_kept _ _) rfl) fun _ => .refl s

theorem execIdentityExchange_keeps (answer : Option (Byte × Byte)) (s : State) :
    Keeps s (execIdentityExchange answer s) := by
  refine .next ?_
  split
  · exact .refl s
  · exact Kept.settle <| Kept.from ((endStartUp_kept _ _).trans (releaseHeld_kept _)) rfl
  · exact Kept.settle <| Kept.from ((endCleanExchange_kept _ _).trans (releaseHeld_kept _)) rfl

theorem execPowerOnReset_keeps (br1 br0 above : Bool) (mv c : Int) (s : State) :
    Keeps s (execPowerOnReset br1 br0 above mv c s) :=
  .next <| .ite (fun _ => dropped_kept s _ _) fun _ => (dropped_kept s _ _).trans (startUp_kept _ _ _ _ _ _)

theorem execLineResetAssert_keeps (s : State) : Keeps s (execLineResetAssert s) :=
  .next <| .ite (fun _ => .of_same rfl) fun _ => (dropped_kept s .held .line).trans (.of_same rfl)

theorem execLineResetRelease_keeps (br1 br0 above : Bool) (mv c : Int) (s : State) :
    Keeps s (execLineResetRelease br1 br0 above mv c s) :=
  .next <| .ite (fun _ => Kept.from ((dropped_kept _ _ _).trans (startUp_kept _ _ _ _ _ _)) rfl) fun _ => .of_same rfl

/-- Every command answers a next state and keeps the queues. -/
theorem exec_keeps (c : Instr) (s : State) : Keeps s (exec c s) := by
  cases c with
  | frameReceived => exact .next <| .ite (fun _ => receiveBytes_kept _ s) fun _ => .refl s
  | frameGapTimeout => exact .next (.of_same rfl)
  | framingError => exact .next (.of_same rfl)
  | badKind => exact execBadKind_keeps s
  | status => exact .next <| take_kept _ fun _ => Kept.from (reply_kept _ _ _) rfl
  | timeSet => exact execTimeSet_keeps s
  | configSet => exact execConfigSet_keeps s
  | configWriteEnd => exact execConfigWriteEnd_keeps _ s
  | configGet => exact execConfigGet_keeps s
  | windowSet => exact execWindowSet_keeps s
  | windowWriteEnd => exact execWindowWriteEnd_keeps _ s
  | uploadBegin => exact execUploadBegin_keeps s
  | bankEraseEnd => exact execBankEraseEnd_keeps _ s
  | fillingHeaderWriteEnd => exact execFillingHeaderWriteEnd_keeps _ s
  | tripBlock => exact execTripBlock_keeps s
  | tripBlockWriteEnd => exact execTripBlockWriteEnd_keeps _ s
  | uploadCommit => exact execUploadCommit_keeps s
  | commitHeaderWriteEnd => exact execCommitHeaderWriteEnd_keeps _ s
  | uploadAbort => exact execUploadAbort_keeps s
  | uploadIdleTimeout => exact .next <| .ite (fun _ => .of_same rfl) fun _ => .refl s
  | predict => exact execPredict_keeps s
  | noticePost => exact execNoticePost_keeps s
  | noticeWithdraw => exact execNoticeWithdraw_keeps s
  | textPut => exact .next <| take_kept _ fun _ => .ite (fun _ => .of_same rfl) fun _ => reply_kept s _ _
  | textWriteEnd => exact execTextWriteEnd_keeps _ s
  | glyphPut => exact .next <| take_kept _ fun _ => .ite (fun _ => .of_same rfl) fun _ => reply_kept s _ _
  | glyphWriteEnd => exact execGlyphWriteEnd_keeps _ s
  | boardRead => exact .next <| take_kept _ fun _ => .ite (fun _ => reply_kept s _ _) fun _ => reply_kept s _ _
  | faultRead => exact .next <| take_kept _ fun _ => reply_kept s _ _
  | faultClear => exact execFaultClear_keeps s
  | cleanNow => exact execCleanNow_keeps s
  | reset => exact .next <| take_kept _ fun _ => (reply_kept s .ok []).trans (.of_same rfl)
  | requestReset => exact .next <| .ite (fun _ => (driveEvent_kept s _).settle) fun _ => .refl s
  | secondEvent => exact execSecondEvent_keeps s
  | sweep => exact execSweep_keeps s
  | supplySample => exact execSupplySample_keeps _ _ s
  | rotation => exact execRotation_keeps s
  | riseExpiry => exact execRiseExpiry_keeps _ s
  | retryPauseExpiry => exact .next <| .ite (fun _ => .of_same rfl) fun _ => .refl s
  | lingerExpiry => exact execLingerExpiry_keeps s
  | frameEnd => exact .next <| .ite (fun _ => (driveEvent_kept s _).settle) fun _ => .refl s
  | identityExchange => exact execIdentityExchange_keeps _ s
  | brownout => exact .next <| .ite (fun _ => (moveLevel_kept s _).settle) fun _ => .refl s
  | supplyLevelRise => exact .next <| .ite (fun _ => (moveLevel_kept s _).settle) fun _ => .refl s
  | powerOnReset => exact execPowerOnReset_keeps _ _ _ _ _ s
  | lineResetAssert => exact execLineResetAssert_keeps s
  | lineResetRelease => exact execLineResetRelease_keeps _ _ _ _ _ s
  | powerLoss => exact .next (dropped_kept s _ _)
  | elapsedSecond => exact .next <| .ite (fun _ => .of_same rfl) fun _ => .refl s
  | replySent => exact .next (.of_same rfl)

/-- Settles O2, from what every command keeps. -/
theorem everyCommandKeepsTheCommandQueue : Obligations.EveryCommandKeepsTheCommandQueue := by
  intro c s
  obtain ⟨t, answered, kept⟩ := exec_keeps c s
  exact ⟨t, answered, kept.commands⟩

/-- Settles O4, from what every command keeps. -/
theorem stepKeepsRequestQueueBounded : Obligations.StepKeepsRequestQueueBounded := by
  intro s t sound h
  unfold step at h
  split at h
  · cases h
    exact sound
  · rename_i c rest _
    obtain ⟨u, answered, kept⟩ := exec_keeps c (s.setPending rest)
    cases answered.symm.trans h
    exact kept.requests sound

end Sys2Proof.Queues
end

section
/-! PROOFS. What every step keeps: an invariant of the state is kept by every command as soon as the few operations that touch what
it looks at keep it. The operations are listed once, block by block, and the commands are walked through once. -/

namespace Sys2Proof.StepInvariants

open Sys2Proof Sys2Proof.Machine

/-! ### What the invariants look at -/

/-- A timer's mode and reload value, which its starts, stops, expiries and counts leave alone (R67). -/
def period (t : Timer) : TimerMode × Nat := (t.mode, t.reload)

@[simp] theorem period_start (t : Timer) : period t.start = period t := rfl
@[simp] theorem period_stop (t : Timer) : period t.stop = period t := rfl
@[simp] theorem period_count (t : Timer) : period t.count = period t := rfl

@[simp] theorem period_expire (t : Timer) : period t.expire = period t := by
  unfold Timer.expire
  cases t.mode <;> rfl

/-- The modes and reload values of the seven timers (R68). -/
def periods (t : Timers) : List (TimerMode × Nat) :=
  [period t.sweep, period t.sample, period t.rotation, period t.linger, period t.upload, period t.rise, period t.retry]

/-- The Tile Map without its elapsed-second count. -/
def mapSeen (tm : TileMap) : Nat × Nat × List Tile × List Job := (tm.wt, tm.ht, tm.tiles, tm.jobs)

/-- The banks' roles and the reuse flag. -/
def rolesSeen (st : Store) : Option Role × Option Role × Bool := (st.bankA.role, st.bankB.role, st.reuse)

/-- What the panel's blocks hold of it: the Composer, the Tile Map and the granted job. -/
def panelSeen (s : State) : Composer × (Nat × Nat × List Tile × List Job) × Option Nat :=
  (s.composer, mapSeen s.tiles, s.drive.granted)

/-- What the other blocks hold of it. -/
def frontSeen (s : State) :
    Bool × Board × (Option Role × Option Role × Bool) × List (TimerMode × Nat) × ConfigRecord :=
  (s.clockRunning, s.board, rolesSeen s.store, periods s.timers, s.cfg)

/-! ### The operations that touch it, block by block -/

/-- The operations of the panel's blocks that an invariant must be kept by. -/
structure PanelKeeps (I : State → Prop) : Prop where
  /-- A recomposition up to its hand-overs (R87 to R91). -/
  compose : ∀ {s : State} (b : Bands), I s → I (s.compose b).1
  /-- Formation of a row (R120 to R123). -/
  formRow : ∀ {s : State} (r : Nat), I s → I (s.setTiles (s.tiles.formRow s.notices.jobClass r).1)
  /-- A full clean is queued (R127, R128). -/
  queueClean : ∀ {s : State}, I s → I (s.setTiles s.tiles.queueClean.1)
  /-- Tile records change and keep their wanted signatures. -/
  glass : ∀ {s : State} {l : List Tile}, l.map (·.wanted) = s.tiles.tiles.map (·.wanted) → I s →
    I (s.setTiles { s.tiles with tiles := l })
  /-- As many row records stand in place of those there. -/
  rows : ∀ {s : State} {l : List RowRecord}, l.length = s.composer.rows.length → I s →
    I { s with composer := { s.composer with rows := l } }
  /-- A QUEUED job is granted while none is in hand (R152). -/
  grantJob : ∀ {s : State} {j : Job}, s.tiles.handJob = none → j ∈ s.tiles.jobs → j.state = .queued → I s →
    I ((s.setDrive { s.drive with granted := some j.num }).setTiles
      (s.tiles.changeJob j.num fun k => { k with state := .granted }))
  /-- A size is applied (R129). -/
  rebuilt : ∀ {s : State} (wt ht n : Nat), I s → I { s with tiles := s.tiles.rebuilt wt ht n, composer := .afterReset wt ht }
  /-- The granted job starts driving (R130). -/
  startJob : ∀ {s : State} {j : Job}, s.drive.granted.bind s.tiles.job = some j → I s →
    I (s.setTiles (s.tiles.startJob j.num))
  /-- The granted job leaves the queue (R130, R132, R133). -/
  endJob : ∀ {s : State} {n : Nat} {l : List Tile}, s.drive.granted = some n →
    l.map (·.wanted) = s.tiles.tiles.map (·.wanted) → I s →
    I ((s.setDrive { s.drive with granted := none }).setTiles
      { s.tiles with jobs := s.tiles.jobs.filter fun k => k.num != n, tiles := l })
  /-- The granted job is QUEUED again (R133). -/
  requeue : ∀ {s : State} {n : Nat}, s.drive.granted = some n → I s →
    I ((s.setDrive { s.drive with granted := none }).setTiles (s.tiles.changeJob n fun i => { i with state := .queued }))
  /-- Every job leaves the queue and the Panel Drive (R135, R167). -/
  clearQueue : ∀ {s : State} {l : List Tile}, l.map (·.wanted) = s.tiles.tiles.map (·.wanted) → I s →
    I ((s.setDrive { s.drive with granted := none }).setTiles { s.tiles with jobs := [], tiles := l })

/-- The board's operations that an invariant must be kept by. -/
structure BoardKeeps (I : State → Prop) : Prop where
  /-- A refill (R10). -/
  refill : ∀ {s : State} (r : Roles), I s → I (s.refillFrom r).1
  /-- A rebuild (R22). -/
  rebuild : ∀ {s u : State} (r : Roles), u.clockRunning = s.clockRunning → I s → I (s.setBoard (u.rebuildFrom r).board)
  /-- A prediction record of a RUNNING clock (R46). -/
  intake : ∀ {s : State} (r : PredictRecord), s.clockRunning = true → I s → I (s.intake r).state
  /-- The sweep of a RUNNING clock (R12 to R14). -/
  sweep : ∀ {s : State} (now grace stale : Int), I s → I (s.setBoard (s.board.sweep now grace stale))
  /-- The second stage of the sweep alone (R25). -/
  sweepPassed : ∀ {s : State} (now grace : Int), I s → I (s.setBoard (s.board.sweepPassed now grace))
  /-- Entries leave without a trace (R25). -/
  filter : ∀ {s : State} (p : Entry → Bool), I s → I (s.setBoard { s.board with entries := s.board.entries.filter p })
  /-- The re-base at a rollover (R23). -/
  rebase : ∀ {s : State} (grace : Int), I s → I (s.setBoard (s.board.rebase grace))

/-- The operations of the clock and the Timetable Store that an invariant must be kept by. -/
structure ClockKeeps (I : State → Prop) : Prop where
  /-- A TIME_SET's time is adopted (R62). -/
  adopt : ∀ {s : State} (t : ClockTime), I s → I { s with clock := ⟨some t, 0⟩ }
  /-- Bank selection of a RUNNING clock (R32). -/
  select : ∀ {s : State} (d : Nat), s.clockRunning = true → I s → I (s.setStore (s.store.select d))
  /-- A bank's record without a role takes its place (R30, R34, R38, R42). -/
  dropRole : ∀ {s : State} {x : BankRecord} (i : BankId), x.role = none → I s → I (s.setStore (s.store.setBank i x))

/-- All of them, and nothing but what `panelSeen` and `frontSeen` show. -/
structure Keeps (I : State → Prop) : Prop extends PanelKeeps I, BoardKeeps I, ClockKeeps I where
  quiet : ∀ {s t : State}, I s → panelSeen t = panelSeen s → frontSeen t = frontSeen s → I t

/-! ### Invariants of a part of the state -/

/-- Faults raised in order change the Fault Unit alone. -/
theorem raiseAll_eq (l : List FaultCode) (s : State) : s.raiseAll l = { s with faults := (s.raiseAll l).faults } := by
  induction l generalizing s with
  | nil => rfl
  | cons c cs ih => exact (ih (s.raise c)).trans rfl

theorem evaluated_eq (s : State) (b : Bands) : ∃ rows, s.evaluated b = { s with composer := { s.composer with rows := rows } } := by
  unfold State.evaluated
  cases b.rows
  · exact ⟨s.composer.rows, rfl⟩
  · exact ⟨s.evaluate, rfl⟩

/-- A recomposition changes the row records, the kept pixels, the tile records and the Fault Unit alone (R87 to R91). -/
theorem compose_eq (s : State) (b : Bands) :
    ∃ faults rows pixels tiles, (s.compose b).1 = { s with
      faults := faults
      composer := ⟨rows, pixels⟩
      tiles := { s.tiles with tiles := tiles } } := by
  unfold State.compose
  obtain ⟨rows, e⟩ := evaluated_eq s b
  simp only [e]
  rw [raiseAll_eq]
  exact ⟨_, _, _, _, rfl⟩

/-- An invariant that looks at nothing of the panel's blocks is kept by their operations. -/
theorem PanelKeeps.of_front {I : State → Prop} (h : ∀ {s t : State}, frontSeen t = frontSeen s → I s → I t) : PanelKeeps I where
  compose {s} b := h (by obtain ⟨_, _, _, _, e⟩ := compose_eq s b; rw [e]; rfl)
  formRow _ := h rfl
  queueClean := h rfl
  glass _ := h rfl
  rows _ := h rfl
  grantJob _ _ _ := h rfl
  rebuilt _ _ _ := h rfl
  startJob _ := h rfl
  endJob _ _ := h rfl
  requeue _ := h rfl
  clearQueue _ := h rfl

/-- An invariant that does not look at the board is kept by the board's operations. -/
theorem BoardKeeps.of_rest {I : State → Prop} (h : ∀ {s : State} (b : Board) (f : FaultUnit), I s → I { s with board := b, faults := f }) :
    BoardKeeps I where
  refill {s} r hs := (refillFrom_boardWork s r).others ▸ h _ _ hs
  rebuild {s} _ _ _ hs := h (s := s) _ s.faults hs
  intake {s} r _ hs := (intake_boardWork s r).others ▸ h _ _ hs
  sweep {s} _ _ _ hs := h (s := s) _ s.faults hs
  sweepPassed {s} _ _ hs := h (s := s) _ s.faults hs
  filter {s} _ hs := h (s := s) _ s.faults hs
  rebase {s} _ hs := h (s := s) _ s.faults hs

/-- An invariant that looks neither at the clock nor at the banks' roles is kept by their operations. -/
theorem ClockKeeps.of_rest {I : State → Prop} (h : ∀ {s : State} (c : Clock) (st : Store), I s → I { s with clock := c, store := st }) :
    ClockKeeps I where
  adopt {s} _ hs := h (s := s) _ s.store hs
  select {s} _ _ hs := h (s := s) s.clock _ hs
  dropRole {s} _ _ _ hs := h (s := s) s.clock _ hs

/-! ### The arbiter's choice -/

theorem pickJob_mem {elapsed : Nat} {l : List Job} {j : Job} (h : pickJob elapsed l = some j) : j ∈ l := by
  induction l generalizing j with
  | nil => cases h
  | cons a as ih =>
    unfold pickJob at h
    split at h
    · cases h
      exact List.mem_cons_self
    · next k hk =>
      split at h
      · cases h
        exact List.mem_cons_of_mem _ (ih hk)
      · cases h
        exact List.mem_cons_self

/-- What the arbiter chooses is a QUEUED job of the queue while none is in hand (R149, R150). -/
theorem chooseJob_spec {s : State} {j : Job} {band : Nat} (h : s.chooseJob = some (j, band)) :
    s.tiles.handJob = none ∧ j ∈ s.tiles.jobs ∧ j.state = .queued := by
  unfold State.chooseJob at h
  split at h
  · cases h
  · next idle =>
    split at h
    · cases h
    · obtain ⟨k, hk, e⟩ := Option.map_eq_some_iff.mp h
      cases e
      obtain ⟨mem, eligible⟩ := List.mem_filter.mp (pickJob_mem hk)
      simp only [not_or, Option.not_isSome_iff_eq_none] at idle
      simp only [State.eligible, Bool.and_eq_true, beq_iff_eq] at eligible
      exact ⟨idle.2.1, mem, eligible.1.1⟩

/-! ### What an end of a job leaves of the tiles (R130, R132, R133, R135) -/

theorem completeTiles_wanted (j : Job) (wt limit : Nat) (ref : Option Nat) (l : List Tile) (i : Nat)
    (snap : List (Option Signature)) : (completeTiles j wt limit ref i snap l).map (·.wanted) = l.map (·.wanted) := by
  induction l generalizing i snap with
  | nil => rfl
  | cons t ts ih =>
    unfold completeTiles
    split
    · cases h : j.mode <;> simp [Tile.driven, ih]
    · simp [ih]

theorem map_wanted {f : Tile → Tile} (h : ∀ t, (f t).wanted = t.wanted) (l : List Tile) :
    (l.map f).map (·.wanted) = l.map (·.wanted) := by
  rw [List.map_map]
  exact List.map_congr_left fun t _ => h t

theorem abortTiles_wanted (j : Job) (wt : Nat) (ref : Option Nat) (l : List Tile) :
    (abortTiles j wt ref l).map (·.wanted) = l.map (·.wanted) := by
  apply List.ext_getElem?
  intro i
  simp only [List.getElem?_map, abortTiles_tile, Option.map_map]
  congr 1
  funext t
  simp only [Function.comp_apply]
  split <;> rfl

theorem job_none_filter {tm : TileMap} {n : Nat} (h : tm.job n = none) : (tm.jobs.filter fun k => k.num != n) = tm.jobs :=
  List.filter_eq_self.mpr fun k hk => by simpa using List.find?_eq_none.mp h k hk

/-! ### Invariants of the panel's work -/

namespace Keeps

variable {I : State → Prop} (k : Keeps I) {s : State}
include k

theorem setTimers (h : I s) {t : Timers} (e : periods t = periods s.timers) : I { s with timers := t } :=
  k.quiet h rfl (by simp only [frontSeen, e]; rfl)

theorem raise (h : I s) (c : FaultCode) : I (s.raise c) := k.quiet h rfl rfl

theorem raiseAll (h : I s) (l : List FaultCode) : I (s.raiseAll l) := by
  rw [raiseAll_eq]
  exact k.quiet h rfl rfl

theorem addNews (h : I s) (i : NewsItem) : I (s.addNews i) := k.quiet h rfl rfl

theorem choose (h : I s) : I s.choose.2 := by
  unfold State.choose
  cases s.schedule
  · exact h
  · exact k.quiet h rfl rfl

theorem reply (h : I s) (e : Result) (d : List Byte) : I (s.reply e d) := by
  unfold State.reply
  cases s.link.requests
  · exact h
  · exact k.quiet h rfl rfl

theorem eitherOrder (h : I s) {f g : State → State} (hf : ∀ {u}, I u → I (f u)) (hg : ∀ {u}, I u → I (g u)) :
    I (s.eitherOrder f g) := by
  obtain ⟨l, e⟩ := eitherOrder_cases s f g
  have hl : I { s with schedule := l } := k.quiet h rfl rfl
  obtain e | e := e <;> rw [e]
  · exact hf (hg hl)
  · exact hg (hf hl)

/-- A reply beside some work, in either order. -/
theorem answered (h : I s) (e : Result) (data : State → List Byte) {work : State → State} (hw : ∀ {u}, I u → I (work u)) :
    I (s.eitherOrder (fun t => t.reply e (data t)) work) := k.eitherOrder h (fun hu => k.reply hu _ _) hw

theorem take (h : I s) (kind : Nat) {f : List Byte → State → State} (hf : ∀ p, I (f p s)) : I (s.take kind f) := by
  obtain e | e | ⟨r, _, _, _, _, e⟩ := take_cases s kind f <;> rw [e]
  · exact h
  · exact k.reply h _ _
  · exact hf r.payload

theorem storeFail (h : I s) (d : List Byte) : I (s.storeFail d) := k.answered h _ _ fun hu => k.raise hu _

/-! ### Tile work -/

theorem formRows (h : I s) (rows : List Nat) : I (s.setTiles (TileMap.formRows s.notices.jobClass s.tiles rows).1) := by
  induction rows generalizing s with
  | nil => exact h
  | cons r rs ih => exact ih (k.formRow r h)

theorem testThreshold (h : I s) : I (s.setTiles s.tiles.testThreshold.1) := by
  unfold TileMap.testThreshold
  split
  · exact k.queueClean h
  · exact h

theorem afterJob (h : I s) (j : Job) (d : Bool) : I (s.setTiles (s.tiles.afterJob s.notices.jobClass j d).1) := by
  have cleaned := k.testThreshold h
  unfold TileMap.afterJob
  by_cases resized : j.cls = .clean ∧ d = true
  · simp only [resized, and_self, if_true]
    exact k.formRows (k.formRows (k.queueClean cleaned) _) _
  · simp only [if_neg resized]
    exact k.formRows (k.formRows cleaned _) _

/-- A completion or an abort, the job leaving the Panel Drive too. -/
theorem leave {n : Nat} (granted : s.drive.granted = some n) {l : List Tile}
    (wanted : l.map (·.wanted) = s.tiles.tiles.map (·.wanted)) (h : I s) (j : Job) (d : Bool) :
    I ((s.setDrive { s.drive with granted := none }).setTiles
      (TileMap.afterJob { s.tiles with jobs := s.tiles.jobs.filter fun i => i.num != n, tiles := l }
        s.notices.jobClass j d).1) :=
  k.afterJob (k.endJob granted wanted h) j d

/-- The Panel Drive loses its job where the queue holds none of its number. -/
theorem forget {n : Nat} (granted : s.drive.granted = some n) (missing : s.tiles.job n = none) (h : I s) :
    I ((s.setDrive { s.drive with granted := none }).setTiles s.tiles) := by
  have gone := k.endJob (l := s.tiles.tiles) granted rfl h
  rw [job_none_filter missing] at gone
  exact k.quiet gone rfl rfl

theorem completeJob {n : Nat} (granted : s.drive.granted = some n) (h : I s) (limit : Nat) (d : Bool) :
    I ((s.setDrive { s.drive with granted := none }).setTiles (s.tiles.completeJob s.notices.jobClass n limit d)) := by
  unfold TileMap.completeJob
  split
  · next missing => exact k.forget granted missing h
  · exact k.leave granted (completeTiles_wanted ..) h _ d

theorem abortJob {n : Nat} (granted : s.drive.granted = some n) (h : I s) (d : Bool) :
    I ((s.setDrive { s.drive with granted := none }).setTiles (s.tiles.abortJob s.notices.jobClass n d)) := by
  unfold TileMap.abortJob
  split
  · next missing => exact k.forget granted missing h
  · exact k.leave granted (abortTiles_wanted ..) h _ d

theorem returnJob {n : Nat} (granted : s.drive.granted = some n) (h : I s) :
    I ((s.setDrive { s.drive with granted := none }).setTiles (s.tiles.returnJob s.notices.jobClass n)) := by
  unfold TileMap.returnJob
  split
  · next missing => exact k.forget granted missing h
  · split
    · exact k.endJob granted (map_wanted (fun t => by split <;> rfl) _) h
    · exact k.formRow _ (k.requeue granted h)

theorem newLimit (h : I s) (old new : Nat) : I (s.setTiles (s.tiles.newLimit s.notices.jobClass old new).1) := by
  unfold TileMap.newLimit
  split
  · exact h
  · exact k.formRows (k.testThreshold (k.glass (map_wanted (fun t => by split <;> rfl) _) h)) _

/-- Full cleans and formation at a request reset, the queue having been emptied (R135). -/
theorem reform (h : I s) (clean : Bool) :
    I (s.setTiles (TileMap.formRows s.notices.jobClass
      (if clean then s.tiles.queueClean else (s.tiles, false)).1.testThreshold.1
      (if clean then s.tiles.queueClean else (s.tiles, false)).1.testThreshold.1.allRows).1) := by
  cases clean
  · exact k.formRows (k.testThreshold h) _
  · exact k.formRows (k.testThreshold (k.queueClean h)) _

/-! ### Grants (R152, R157) -/

theorem startDrive (h : I s) : I s.startDrive := by
  unfold State.startDrive
  split
  · exact h
  · next started => exact k.quiet (k.startJob started h) rfl rfl

theorem startRise (h : I s) : I s.startRise := k.quiet h rfl rfl

theorem meetOff (h : I s) : I s.meetOff := by
  unfold State.meetOff
  split
  · exact k.startRise h
  · exact h

theorem lingerDown (h : I s) : I s.lingerDown := k.quiet h rfl (by simp [frontSeen, periods, State.lingerDown, State.clockRunning])

theorem meetReady (h : I s) : I s.meetReady := k.startDrive (k.quiet h rfl rfl)

theorem meetBooster (h : I s) : I s.meetBooster := by
  obtain e | e | e | e | e := meetBooster_cases s <;> rw [e]
  · exact h
  · exact k.meetOff h
  · exact k.meetReady h
  · exact k.meetOff (k.lingerDown (k.choose h))
  · exact k.meetReady (k.choose h)

theorem formAll (h : I s) (rows : List Nat) : I (s.formAll rows) := k.formRows h rows

theorem applySize (h : I s) (n : Nat) : I (s.applySize n) := by
  unfold State.applySize
  split
  · exact k.formAll (k.compose _ (k.rebuilt _ _ n h)) _
  · exact h

theorem exchange (h : I s) (x : Option Exchange) : I (s.setDrive { s.drive with exchange := x }) := k.quiet h rfl rfl

theorem attempt (h : I s) : I s.attempt := by
  unfold State.attempt
  split
  · exact h
  · next j band chosen =>
    obtain ⟨idle, mem, queued⟩ := chooseJob_spec chosen
    have granted := k.grantJob idle mem queued h
    unfold State.grant
    dsimp only
    split
    · refine k.exchange (k.applySize ?_ _) _
      exact k.quiet granted rfl rfl
    · refine k.meetBooster ?_
      exact k.quiet granted rfl rfl

theorem noteAttempt (h : I s) : I s.noteAttempt := by
  unfold State.noteAttempt
  split
  · exact k.attempt (k.choose h)
  · exact k.quiet (k.choose h) rfl rfl

theorem settle (h : I s) : I s.settle := by
  unfold State.settle
  split
  · exact k.attempt (k.quiet h rfl rfl)
  · exact h

/-! ### Recomposition and cleans -/

theorem takeTiles {a : TileMap × Bool} (h : I (s.setTiles a.1)) : I (s.takeTiles a) := by
  unfold State.takeTiles
  split
  · exact k.noteAttempt h
  · exact h

theorem handOverAll (h : I s) (rows : List Nat) : I (s.handOverAll rows) := by
  induction rows generalizing s with
  | nil => exact h
  | cons r rs ih => exact ih (k.takeTiles (k.formRow r h))

theorem recompose (h : I s) (b : Bands) : I (s.recompose b) := k.handOverAll (k.compose b h) _

theorem queueFullClean (h : I s) : I s.queueFullClean := by
  unfold State.queueFullClean
  split
  · exact k.noteAttempt (k.queueClean h)
  · exact h

theorem returnGranted (h : I s) : I s.returnGranted := by
  unfold State.returnGranted
  split
  · exact h
  · next granted => exact k.returnJob granted h

end Keeps

namespace Keeps

variable {I : State → Prop} (k : Keeps I) {s : State}
include k

/-! ### The board, the banks and the Notice List -/

theorem rebuildFrom (h : I s) (r : Roles) : I (s.rebuildFrom r) := by
  rw [(rebuildFrom_boardWork s r).others]
  exact k.quiet (k.rebuild r rfl h) rfl rfl

theorem rebuildBoard (h : I s) : I s.rebuildBoard := k.recompose (k.rebuildFrom h _) _

theorem intakeAll (h : I s) (running : s.clockRunning = true) (l : List PredictRecord) : I (s.intakeAll l).1 := by
  induction l generalizing s with
  | nil => exact h
  | cons r rs ih =>
    refine ih (k.intake r running h) ?_
    rw [(intake_boardWork s r).others]
    exact running

theorem selectBanks (h : I s) : I s.selectBanks := by
  unfold State.selectBanks
  split
  · exact h
  · next t running =>
    have selected := k.select t.date (by simp [State.clockRunning, running]) h
    split
    · exact selected
    · exact k.raise selected _

theorem abort (h : I s) : I (s.setStore s.store.abort) := by
  unfold Store.abort
  split
  · exact h
  · next u _ => exact k.quiet (k.dropRole u.target rfl h) rfl (by cases u.target <;> rfl)

theorem abortUpload (h : I s) : I s.abortUpload := k.setTimers (k.abort h) rfl

theorem touchUpload (h : I s) : I s.touchUpload := by
  unfold State.touchUpload
  split
  · exact k.quiet h rfl rfl
  · exact h

theorem failBegin (h : I s) (i : BankId) : I (s.failBegin i) := k.storeFail (k.dropRole i rfl h) _

theorem decideNotices (h : I s) (l : List Notice) : I (s.decideNotices l).1 := by
  unfold State.decideNotices
  dsimp only
  split <;> exact k.quiet h rfl rfl

theorem noticeChange (h : I s) (l : List Notice) (e : Result) (data : List Byte) :
    I (s.noticeChange l fun t => t.reply e data) := by
  unfold State.noticeChange
  refine k.answered (k.decideNotices h l) e (fun _ => data) fun hu => ?_
  split
  · exact k.recompose hu _
  · exact hu

theorem expireNotices (h : I s) : I s.expireNotices := by
  unfold State.expireNotices
  split
  · exact h
  · dsimp only
    split
    · exact k.recompose (k.decideNotices h _) _
    · exact k.decideNotices h _

/-! ### Events at the Panel Drive -/

theorem takeBrownout (h : I s) : I s.takeBrownout := by
  unfold State.takeBrownout
  split
  · exact k.quiet h rfl rfl
  · exact k.attempt (k.returnGranted (k.quiet h rfl rfl))
  · exact k.quiet h rfl rfl
  · exact k.quiet h rfl rfl

theorem takeSupplyRise (h : I s) : I s.takeSupplyRise := by
  unfold State.takeSupplyRise
  dsimp only
  split <;> exact k.quiet h rfl rfl

theorem takeLingerExpiry (h : I s) : I s.takeLingerExpiry := by
  unfold State.takeLingerExpiry
  split
  · exact k.quiet h rfl rfl
  · exact h

theorem endCutFrame (h : I s) : I s.endCutFrame := by
  unfold State.endCutFrame
  dsimp only
  have ended : ∀ t : State, I t → I (if (t.raise .drive312).drive.granted.isSome then (t.raise .drive312).meetBooster
      else t.raise .drive312) := fun t ht => by
    split
    · exact k.meetBooster (k.raise ht _)
    · exact k.raise ht _
  split
  · exact ended _ (k.quiet h rfl rfl)
  · exact ended _ (k.quiet h rfl rfl)

theorem abortDrive (h : I s) : I s.abortDrive := by
  unfold State.abortDrive
  split
  · exact h
  · next granted =>
    refine k.raise (k.attempt ?_) _
    exact k.quiet (k.abortJob granted h s.sizeDiffers) rfl rfl

theorem completeDrive (h : I s) : I s.completeDrive := by
  unfold State.completeDrive
  split
  · exact h
  · next granted =>
    refine k.attempt ?_
    exact k.quiet (k.completeJob granted h (s.cfg.param 17) s.sizeDiffers) rfl rfl

theorem takeFrameEnd (h : I s) : I s.takeFrameEnd := by
  have counted : I (s.setDrive { s.drive with framesDriven := s.drive.framesDriven + 1 }) := k.quiet h rfl rfl
  unfold State.takeFrameEnd
  split
  · exact h
  · split
    · exact k.endCutFrame h
    · dsimp only
      split
      · exact k.abortDrive counted
      · split
        · exact k.completeDrive counted
        · exact counted

omit k in
/-- A request reset leaves the Panel Drive without a job, and nothing else that is looked at changed but the rows' pending increases
and an upload's target (R43, R93, R167). -/
theorem resetBlocks_seen (s : State) :
    panelSeen s.resetBlocks = ({ s.composer with rows := s.composer.rows.map RowRecord.clearPending }, mapSeen s.tiles, none) ∧
      frontSeen s.resetBlocks = frontSeen (s.setStore s.store.abort) ∧ s.resetBlocks.tiles = s.tiles := by
  unfold State.resetBlocks State.resetDrive
  dsimp only [State.abortUpload]
  cases s.drive.booster <;> exact ⟨rfl, rfl, rfl⟩

theorem takeRequestReset (h : I s) : I s.takeRequestReset := by
  obtain ⟨panel, front, tiles⟩ := resetBlocks_seen s
  have board := (rebuildFrom_boardWork s.resetBlocks s.resetRoles).others
  unfold State.takeRequestReset
  refine k.recompose (k.recompose (k.takeTiles ?_) _) _
  have emptied : ∀ l : List Tile, l.map (·.wanted) = s.tiles.tiles.map (·.wanted) →
      I ((s.resetBlocks.rebuildFrom s.resetRoles).setTiles { s.tiles with jobs := [], tiles := l }) := fun l hl => by
    have cleared := k.clearQueue hl h
    have settled := k.rows (l := s.composer.rows.map RowRecord.clearPending) (by simp) cleared
    have rebuilt := fun running => k.rebuild (u := s.resetBlocks) s.resetRoles running (k.abort settled)
    refine k.quiet (rebuilt (congrArg Prod.fst front)) ?_ ?_
    · rw [board]
      simp only [panelSeen, Prod.mk.injEq] at panel
      exact congrArg₂ (fun c g => (c, mapSeen { s.tiles with jobs := [], tiles := l }, g)) panel.1 panel.2.2
    · rw [board]
      exact congrArg (fun x => (x.1, (s.resetBlocks.rebuildFrom s.resetRoles).board, x.2.2)) front
  have same : (s.resetBlocks.rebuildFrom s.resetRoles).tiles = s.tiles := by rw [board]; exact tiles
  rw [same]
  unfold TileMap.requestReset
  refine k.reform (emptied _ ?_) s.tiles.hasClean
  split
  · exact map_wanted (f := fun t => { t with job := none }) (fun _ => rfl) _
  · exact (map_wanted (f := fun t => { t with job := none }) (fun _ => rfl) _).trans (abortTiles_wanted ..)

theorem driveEvent (h : I s) (e : DriveEvent) : I (s.driveEvent e) := by
  unfold State.driveEvent
  split
  · exact k.quiet h rfl rfl
  · cases e with
    | brownout => exact k.takeBrownout h
    | supplyRise => exact k.takeSupplyRise h
    | lingerExpiry => exact k.takeLingerExpiry h
    | frameEnd => exact k.takeFrameEnd h
    | requestReset => exact k.takeRequestReset h

theorem driveEvents (h : I s) (l : List DriveEvent) : I (s.driveEvents l) := by
  induction l generalizing s with
  | nil => exact h
  | cons e es ih => exact ih (k.driveEvent h e)

theorem releaseHeld (h : I s) : I s.releaseHeld :=
  k.driveEvents (s := s.setDrive { s.drive with held := [] }) (k.quiet h rfl rfl) _

theorem moveLevel (h : I s) (above : Bool) : I (s.moveLevel above) := by
  unfold State.moveLevel
  split
  · exact h
  · exact k.driveEvent h _

theorem seeVoltage (h : I s) (mv : Int) : I (s.seeVoltage mv) := by
  unfold State.seeVoltage
  split
  · exact h
  · exact k.moveLevel h _

theorem moveThreshold (h : I s) (old : Nat) : I (s.moveThreshold old) := k.seeVoltage (s := s.fresh.2) (k.quiet h rfl rfl) _

theorem failRise (h : I s) : I s.failRise :=
  k.attempt (k.raise (k.returnGranted (s := s.setDrive s.drive.lowered) (k.quiet h rfl rfl)) _)

/-! ### The identity exchange (R170, R171, R194) -/

theorem raiseIdentity (h : I s) (fault : Option FaultCode) : I (s.raiseIdentity fault) := by
  cases fault
  · exact h
  · exact k.raise h _

theorem decideClean (h : I s) (fault : Option FaultCode) : I (s.decideClean fault) := by
  unfold State.decideClean
  split
  · exact k.attempt (k.returnGranted h)
  · split
    · exact k.meetBooster h
    · exact h

/-- An invariant that does not look at the granted job keeps while the clean is set aside. -/
theorem takeHeldFirst (free : ∀ {u : State} (d : Drive), I u → I (u.setDrive d)) (h : I s) : I s.takeHeldFirst :=
  free _ (k.driveEvents (free _ h) _)

theorem endCleanExchange (held : ∀ {u : State}, u.drive.granted ≠ none → I u → I u.takeHeldFirst) (h : I s)
    (fault : Option FaultCode) : I (s.endCleanExchange fault) := by
  have raised := k.raiseIdentity h fault
  unfold State.endCleanExchange
  dsimp only
  split
  · exact k.decideClean raised fault
  · next waits =>
    have granted : (s.raiseIdentity fault).choose.2.drive.granted ≠ none := by
      rw [show ∀ u : State, u.choose.2.drive = u.drive from fun u => by unfold State.choose; cases u.schedule <;> rfl]
      exact fun e => waits (.inr e)
    split
    · exact k.decideClean (held granted (k.choose raised)) fault
    · exact k.decideClean (k.choose raised) fault

theorem endStartUp (h : I s) (fault : Option FaultCode) : I (s.endStartUp fault) := by
  have started : I { s.raiseIdentity fault with phase := .running } := k.quiet (k.raiseIdentity h fault) rfl rfl
  exact k.addNews (k.raise (k.attempt (k.queueClean started)) _) _

/-! ### Samples -/

theorem sampleOwn (h : I s) (mv c : Int) : I (s.sampleOwn mv c) := by
  have measured : I (s.measure mv c) := k.quiet h rfl rfl
  unfold State.sampleOwn State.judgeConserve
  dsimp only
  split
  · split
    · exact k.quiet measured rfl rfl
    · split
      · exact k.quiet measured rfl rfl
      · exact measured
  · split
    · exact k.quiet measured rfl rfl
    · exact measured

theorem tempFault (h : I s) (c : Int) : I (s.tempFault c) := by
  unfold State.tempFault
  split
  · exact k.raise h _
  · split
    · exact k.raise h _
    · exact h

theorem handConserve (h : I s) (was : Bool) : I (s.handConserve was) := by
  unfold State.handConserve
  split
  · exact h
  · split
    · exact k.noteAttempt (k.recompose h _)
    · exact k.recompose h _

theorem sample (h : I s) (mv c : Int) : I (s.sample mv c) :=
  k.noteAttempt (k.eitherOrder (k.sampleOwn h mv c) (fun hu => k.handConserve hu _) fun hu => k.tempFault hu c)

/-! ### The clock -/

theorem timeEffects (h : I s) (c : TimeCase) : I (s.timeEffects c) := by
  cases c with
  | firstSet => exact k.rebuildBoard (k.selectBanks h)
  | dateChange => exact k.rebuildBoard (k.selectBanks h)
  | jump => exact k.raise (k.rebuildBoard h) _
  | adjust => exact h

theorem adoptTime (h : I s) (t : ClockTime) : I (s.adoptTime t) := k.quiet (k.adopt t h) rfl rfl

theorem rollover (h : I s) : I s.rollover :=
  k.addNews (k.recompose (k.refill _ (k.selectBanks (k.rebase _ h))) _) _

theorem minuteTick (h : I s) (minute : Nat) : I (s.minuteTick minute) := by
  have ticked : I (s.refill.1.recompose tickBands) := k.recompose (k.refill _ h) _
  have cleaned : I ((s.refill.1.recompose tickBands).dailyClean minute) := by
    unfold State.dailyClean
    split
    · exact k.queueFullClean ticked
    · exact ticked
  unfold State.minuteTick State.frontlightMatch
  split
  · exact k.quiet cleaned rfl rfl
  · split
    · exact k.quiet cleaned rfl rfl
    · exact cleaned

theorem secondEvent {t : ClockTime} (running : s.clock.time = some t) (h : I s) : I (s.secondEvent t) := by
  have ticked : I { s with clock := ⟨some t.tick, 0⟩ } :=
    k.quiet h rfl (by simp [frontSeen, State.clockRunning, running])
  unfold State.secondEvent
  dsimp only
  split <;> split
  · exact k.minuteTick (k.rollover ticked) _
  · exact k.minuteTick ticked _
  · exact k.rollover ticked
  · exact ticked

/-! ### The receiver -/

theorem receiveByte (h : I s) (b : Byte) : I (s.receiveByte b) := by
  have quiet : ∀ r, I (s.setReceiver r) := fun r => k.quiet h rfl rfl
  have handled : ∀ r, I ((s.setReceiver .hunt).handFrame r) := fun r => by
    unfold State.handFrame
    split
    · exact k.quiet h rfl rfl
    · exact k.quiet h rfl rfl
  unfold State.receiveByte
  split
  · split
    · exact quiet _
    · exact h
  · dsimp only
    split
    · exact quiet _
    · split
      · split
        · exact handled _
        · exact quiet _
      · exact quiet _

theorem receiveBytes (h : I s) (l : List Byte) : I (s.receiveBytes l) := by
  induction l generalizing s with
  | nil => exact h
  | cons b bs ih => exact ih (k.receiveByte h b)

end Keeps

/-! ### The commands -/

/-- An invariant holds in the state that a command answers. -/
def Next (I : State → Prop) (o : Host.Outcome State Fault Refusal) : Prop := ∀ t, o = .next t → I t

theorem Next.of {I : State → Prop} {t : State} (h : I t) : Next I (.next t) := fun _ e => Host.Outcome.next.inj e ▸ h

/-- The commands beside the ends of the configuration writes, the resets and the loss of power. -/
def plainCommand : Instr → Bool
  | .configWriteEnd _ => false
  | .windowWriteEnd _ => false
  | .powerOnReset _ _ _ _ _ => false
  | .lineResetAssert => false
  | .lineResetRelease _ _ _ _ _ => false
  | .powerLoss => false
  | _ => true

namespace Keeps

variable {I : State → Prop} (k : Keeps I) {s : State}
include k

theorem startWrite (h : I s) (w : FlashWrite) : I (s.startWrite w) := k.quiet h rfl rfl

theorem execBadKind (h : I s) : Next I (Machine.execBadKind s) := by
  refine .of ?_
  split
  · exact h
  · split
    · exact k.reply h _ _
    · exact h

theorem execStatus (h : I s) : Next I (Machine.execStatus s) := .of <| k.take h _ fun _ =>
  k.reply (s := s.setFaults { s.faults with news := 0 }) (k.quiet h rfl rfl) _ _

theorem execTimeSet (h : I s) : Next I (Machine.execTimeSet s) := by
  refine .of (k.settle (k.take h _ fun p => ?_))
  split
  · exact k.answered (k.timeEffects (k.adoptTime h _) _) _ _ fun hu => k.recompose hu _
  · exact k.reply h _ _

theorem execConfigSet (h : I s) : Next I (Machine.execConfigSet s) := by
  refine .of (k.take h _ fun p => ?_)
  split
  · split
    · exact k.startWrite h _
    · exact k.reply h _ _
  · exact k.reply h _ _

theorem execConfigGet (h : I s) : Next I (Machine.execConfigGet s) := by
  refine .of (k.take h _ fun p => ?_)
  split
  · exact k.reply h _ _
  · split <;> exact k.reply h _ _

theorem execWindowSet (h : I s) : Next I (Machine.execWindowSet s) := by
  refine .of (k.take h _ fun p => ?_)
  split
  · exact k.startWrite h _
  · split <;> exact k.reply h _ _

theorem execUploadBegin (h : I s) : Next I (Machine.execUploadBegin s) := by
  refine .of (k.take h _ fun p => ?_)
  have touched := k.touchUpload h
  dsimp only
  split
  · exact k.reply touched _ _
  · split
    · exact k.startWrite (k.dropRole _ rfl touched) _
    · exact k.reply touched _ _

theorem execBankEraseEnd (h : I s) (verified : Bool) : Next I (Machine.execBankEraseEnd verified s) := by
  refine .of ?_
  split
  · split
    · exact k.quiet h rfl rfl
    · refine k.failBegin ?_ _
      exact k.quiet h rfl rfl
  · exact h

/-- A bank's record with its role kept takes its place. -/
theorem setBank (h : I s) (i : BankId) {x : BankRecord} (role : x.role = (s.store.bank i).role) :
    I (s.setStore (s.store.setBank i x)) := by
  have roles : rolesSeen (s.store.setBank i x) = rolesSeen s.store := by
    cases i <;> simp [rolesSeen, Store.setBank, role, Store.bank]
  exact k.quiet h rfl (congrArg (fun r => (s.clockRunning, s.board, r, periods s.timers, s.cfg)) roles)

theorem execFillingHeaderWriteEnd (h : I s) (verified : Bool) : Next I (Machine.execFillingHeaderWriteEnd verified s) := by
  refine .of ?_
  split
  · next i date _ =>
    split
    · refine k.reply ?_ _ _
      have written : I (s.fresh.2.writeFilling i date s.fresh.1) :=
        k.quiet (k.setBank (i := i) (x := { s.store.bank i with date := date, count := _, check := _, commit := _ }) h rfl)
          rfl rfl
      exact k.quiet written rfl rfl
    · refine k.failBegin ?_ _
      exact k.quiet h rfl rfl
  · exact h

theorem execTripBlock (h : I s) : Next I (Machine.execTripBlock s) := by
  refine .of (k.take h _ fun p => ?_)
  have touched := k.touchUpload h
  dsimp only
  split
  · exact k.reply touched _ _
  · split
    · exact k.reply touched _ _
    · exact k.startWrite touched _

theorem execTripBlockWriteEnd (h : I s) (verified : Bool) : Next I (Machine.execTripBlockWriteEnd verified s) := by
  refine .of ?_
  split
  · split
    · refine k.reply ?_ _ _
      exact k.quiet h rfl rfl
    · refine k.storeFail (k.abortUpload ?_) _
      exact k.quiet h rfl rfl
  · exact h

theorem execUploadCommit (h : I s) : Next I (Machine.execUploadCommit s) := by
  refine .of (k.take h _ fun p => ?_)
  have touched := k.touchUpload h
  dsimp only
  split
  · exact k.reply touched _ _
  · split
    · exact k.startWrite touched _
    · exact k.reply touched _ _

theorem execCommitHeaderWriteEnd (h : I s) (verified : Bool) : Next I (Machine.execCommitHeaderWriteEnd verified s) := by
  refine .of ?_
  split
  · next i date count check commit _ =>
    split
    · refine k.settle ?_
      have committed : I (s.commitBank i date count check commit) :=
        k.quiet (k.dropRole (x := ⟨.valid, date, count, check, commit, none⟩) i rfl h) rfl rfl
      have selected := k.selectBanks committed
      unfold State.afterCommit
      dsimp only
      split
      · exact k.reply selected _ _
      · exact k.answered (k.rebuildFrom selected _) _ _ fun hu => k.recompose hu _
    · refine k.storeFail (k.abortUpload ?_) _
      exact k.quiet h rfl rfl
  · exact h

theorem execUploadAbort (h : I s) : Next I (Machine.execUploadAbort s) := by
  refine .of (k.take h _ fun p => ?_)
  split
  · exact k.reply (k.abortUpload h) _ _
  · exact k.reply h _ _

theorem execUploadIdleTimeout (h : I s) : Next I (Machine.execUploadIdleTimeout s) := by
  refine .of ?_
  split
  · exact k.addNews (k.raise (k.abortUpload h) _) _
  · exact h

theorem execPredict (h : I s) : Next I (Machine.execPredict s) := by
  refine .of (k.settle (k.take h _ fun p => ?_))
  split
  · next running =>
    refine k.answered (k.intakeAll h running _) _ _ fun hu => ?_
    split
    · exact k.recompose hu _
    · exact hu
  · exact k.reply h _ _

theorem execNoticePost (h : I s) : Next I (Machine.execNoticePost s) := by
  refine .of (k.settle (k.take h _ fun p => ?_))
  split
  · exact k.reply h _ _
  · exact k.noticeChange h _ _ _

theorem execNoticeWithdraw (h : I s) : Next I (Machine.execNoticeWithdraw s) := by
  refine .of (k.settle (k.take h _ fun p => ?_))
  dsimp only
  split
  · exact k.reply h _ _
  · split
    · exact k.noticeChange h _ _ _
    · exact k.reply h _ _

theorem execTextPut (h : I s) : Next I (Machine.execTextPut s) := by
  refine .of (k.take h _ fun p => ?_)
  split
  · exact k.startWrite h _
  · exact k.reply h _ _

theorem execTextWriteEnd (h : I s) (verified : Bool) : Next I (Machine.execTextWriteEnd verified s) := by
  refine .of ?_
  split
  · next id codes _ =>
    have put : I (s.putText id codes) := k.quiet h rfl rfl
    have lost : I (s.loseText id) := k.quiet h rfl rfl
    refine k.settle ?_
    split
    · exact k.answered put _ _ fun hu => k.recompose hu _
    · exact k.eitherOrder lost (fun hu => k.storeFail hu _) fun hu => k.recompose hu _
  · exact h

theorem execGlyphPut (h : I s) : Next I (Machine.execGlyphPut s) := by
  refine .of (k.take h _ fun p => ?_)
  split
  · exact k.startWrite h _
  · exact k.reply h _ _

theorem execGlyphWriteEnd (h : I s) (verified : Bool) : Next I (Machine.execGlyphWriteEnd verified s) := by
  refine .of ?_
  split
  · next code g _ =>
    have put : I (s.putGlyph code g) := k.quiet h rfl rfl
    have lost : I (s.loseGlyph code) := k.quiet h rfl rfl
    refine k.settle ?_
    split
    · exact k.answered put _ _ fun hu => k.recompose hu _
    · exact k.eitherOrder lost (fun hu => k.storeFail hu _) fun hu => k.recompose hu _
  · exact h

theorem execBoardRead (h : I s) : Next I (Machine.execBoardRead s) := by
  refine .of (k.take h _ fun p => ?_)
  split <;> exact k.reply h _ _

theorem execFaultClear (h : I s) : Next I (Machine.execFaultClear s) := by
  refine .of (k.settle (k.take h _ fun p => ?_))
  have cleared : I s.clearFaults := k.quiet h rfl rfl
  refine k.answered cleared _ (fun _ => b16 s.faults.latched.toNat ++ b16 s.faults.count) fun hu => ?_
  split
  · exact k.noteAttempt hu
  · exact hu

theorem execCleanNow (h : I s) : Next I (Machine.execCleanNow s) := by
  refine .of (k.settle (k.take h _ fun p => ?_))
  dsimp only
  split
  · exact k.answered (k.queueClean h) _ (fun _ => flag8 true) fun hu => k.noteAttempt hu
  · exact k.reply h _ _

theorem execReset (h : I s) : Next I (Machine.execReset s) :=
  .of <| k.take h _ fun _ => k.quiet (k.reply h .ok []) rfl rfl

theorem execSecondEvent (h : I s) : Next I (Machine.execSecondEvent s) := by
  refine .of ?_
  split
  · exact h
  · next running => exact k.settle (k.secondEvent running h)

theorem sweepBoard (h : I s) : I s.sweepBoard := by
  unfold State.sweepBoard
  split
  · exact k.sweep _ _ _ h
  · exact h

theorem execSweep (h : I s) : Next I (Machine.execSweep s) := by
  have reloaded : I { s with timers := { s.timers with sweep := s.timers.sweep.expire } } :=
    k.setTimers h (by simp [periods])
  refine .of ?_
  split
  · exact k.settle (k.expireNotices (k.recompose (k.sweepBoard reloaded) _))
  · exact h

theorem execSupplySample (h : I s) (mv c : Int) : Next I (Machine.execSupplySample mv c s) := by
  have reloaded : I { s with timers := { s.timers with sample := s.timers.sample.expire } } :=
    k.setTimers h (by simp [periods])
  refine .of ?_
  split
  · exact k.settle (k.sample (k.seeVoltage reloaded _) _ _)
  · exact h

theorem execRotation (h : I s) : Next I (Machine.execRotation s) := by
  have reloaded : I { s with timers := { s.timers with rotation := s.timers.rotation.expire } } :=
    k.setTimers h (by simp [periods])
  unfold Machine.execRotation
  dsimp only
  split
  · split
    · refine .of (k.settle (k.recompose ?_ _))
      exact k.quiet reloaded rfl rfl
    · exact .of reloaded
  · exact .of h

theorem execRiseExpiry (h : I s) (bgood : Bool) : Next I (Machine.execRiseExpiry bgood s) := by
  have expired : I { s with timers := { s.timers with rise := s.timers.rise.expire } } := k.setTimers h (by simp [periods])
  refine .of ?_
  dsimp only
  split
  · split
    · refine k.startDrive ?_
      exact k.quiet expired rfl rfl
    · split
      · exact k.quiet expired rfl rfl
      · exact k.failRise expired
  · exact h

theorem execRetryPauseExpiry (h : I s) : Next I (Machine.execRetryPauseExpiry s) := by
  have expired : I { s with timers := { s.timers with retry := s.timers.retry.expire } } := k.setTimers h (by simp [periods])
  refine .of ?_
  split
  · exact k.startRise expired
  · exact h

theorem execLingerExpiry (h : I s) : Next I (Machine.execLingerExpiry s) := by
  have expired : I { s with timers := { s.timers with linger := s.timers.linger.expire } } := k.setTimers h (by simp [periods])
  refine .of ?_
  split
  · exact k.settle (k.driveEvent expired _)
  · exact h

theorem execFrameEnd (h : I s) : Next I (Machine.execFrameEnd s) := by
  refine .of ?_
  split
  · exact k.settle (k.driveEvent h _)
  · exact h

theorem execRequestReset (h : I s) : Next I (Machine.execRequestReset s) := by
  refine .of ?_
  split
  · exact k.settle (k.driveEvent h _)
  · exact h

theorem execBrownout (h : I s) : Next I (Machine.execBrownout s) := by
  refine .of ?_
  split
  · exact k.settle (k.moveLevel h _)
  · exact h

theorem execSupplyLevelRise (h : I s) : Next I (Machine.execSupplyLevelRise s) := by
  refine .of ?_
  split
  · exact k.settle (k.moveLevel h _)
  · exact h

theorem execIdentityExchange (held : ∀ {u : State}, u.drive.granted ≠ none → I u → I u.takeHeldFirst) (h : I s)
    (answer : Option (Byte × Byte)) : Next I (Machine.execIdentityExchange answer s) := by
  have ended := k.exchange h none
  refine .of ?_
  split
  · exact h
  · exact k.settle (k.releaseHeld (k.endStartUp ended _))
  · exact k.settle (k.releaseHeld (k.endCleanExchange held ended _))

theorem execElapsedSecond (h : I s) : Next I (Machine.execElapsedSecond s) := by
  refine .of ?_
  split
  · exact k.quiet h rfl rfl
  · exact h

theorem execFrameReceived (h : I s) (bytes : List Byte) : Next I (Machine.execFrameReceived bytes s) := by
  refine .of ?_
  split
  · exact k.receiveBytes h _
  · exact h

/-- What a command keeps, but for the ends of the configuration writes, the resets and the loss of power. -/
theorem plain (held : ∀ {u : State}, u.drive.granted ≠ none → I u → I u.takeHeldFirst) {c : Instr} (p : plainCommand c = true)
    (h : I s) : Next I (exec c s) := by
  cases c with
  | frameReceived bytes => exact k.execFrameReceived h bytes
  | frameGapTimeout => exact .of (k.quiet h rfl rfl)
  | framingError => exact .of (k.quiet h rfl rfl)
  | badKind => exact k.execBadKind h
  | status => exact k.execStatus h
  | timeSet => exact k.execTimeSet h
  | configSet => exact k.execConfigSet h
  | configGet => exact k.execConfigGet h
  | windowSet => exact k.execWindowSet h
  | uploadBegin => exact k.execUploadBegin h
  | bankEraseEnd v => exact k.execBankEraseEnd h v
  | fillingHeaderWriteEnd v => exact k.execFillingHeaderWriteEnd h v
  | tripBlock => exact k.execTripBlock h
  | tripBlockWriteEnd v => exact k.execTripBlockWriteEnd h v
  | uploadCommit => exact k.execUploadCommit h
  | commitHeaderWriteEnd v => exact k.execCommitHeaderWriteEnd h v
  | uploadAbort => exact k.execUploadAbort h
  | uploadIdleTimeout => exact k.execUploadIdleTimeout h
  | predict => exact k.execPredict h
  | noticePost => exact k.execNoticePost h
  | noticeWithdraw => exact k.execNoticeWithdraw h
  | textPut => exact k.execTextPut h
  | textWriteEnd v => exact k.execTextWriteEnd h v
  | glyphPut => exact k.execGlyphPut h
  | glyphWriteEnd v => exact k.execGlyphWriteEnd h v
  | boardRead => exact k.execBoardRead h
  | faultRead => exact .of (k.take h _ fun _ => k.reply h _ _)
  | faultClear => exact k.execFaultClear h
  | cleanNow => exact k.execCleanNow h
  | reset => exact k.execReset h
  | requestReset => exact k.execRequestReset h
  | secondEvent => exact k.execSecondEvent h
  | sweep => exact k.execSweep h
  | supplySample mv c => exact k.execSupplySample h mv c
  | rotation => exact k.execRotation h
  | riseExpiry bgood => exact k.execRiseExpiry h bgood
  | retryPauseExpiry => exact k.execRetryPauseExpiry h
  | lingerExpiry => exact k.execLingerExpiry h
  | frameEnd => exact k.execFrameEnd h
  | identityExchange answer => exact k.execIdentityExchange held h answer
  | brownout => exact k.execBrownout h
  | supplyLevelRise => exact k.execSupplyLevelRise h
  | elapsedSecond => exact k.execElapsedSecond h
  | replySent => exact .of (k.quiet h rfl rfl)
  | configWriteEnd | windowWriteEnd | powerOnReset | lineResetAssert | lineResetRelease | powerLoss => cases p

/-! ### Parameters and start-up -/

/-- What a parameter's owner does; P16, P22, P25 and P27 set a timer's reload value (R69, R188). -/
theorem handParam (h : I s) {id : Nat} (timed : id ∈ [16, 22, 25, 27] → ∀ t, I (s.setTimers t)) (old : Nat) :
    I (s.handParam id old) := by
  have clean : I (if s.sizeDiffers then s.queueFullClean else s) := by
    split
    · exact k.queueFullClean h
    · exact h
  unfold State.handParam
  split
  case h_1 => exact clean
  case h_2 => exact clean
  case h_4 =>
    unfold State.dropHidden
    dsimp only
    split
    · exact h
    · exact k.recompose (k.filter _ h) _
  case h_5 =>
    unfold State.regrace
    dsimp only
    split
    · exact h
    · exact k.recompose (k.sweepPassed _ _ h) _
  case h_13 => exact timed (by simp) _
  case h_14 => exact k.takeTiles (k.newLimit h _ _)
  case h_15 => exact k.moveThreshold h _
  case h_16 => exact timed (by simp) _
  case h_17 => exact timed (by simp) _
  case h_18 => exact timed (by simp) _
  case h_19 => exact k.quiet h rfl rfl
  case h_20 => exact k.quiet h rfl rfl
  case h_21 => exact h
  all_goals exact k.recompose h _

omit k in
theorem checked_role (b : StoredBank) : b.checked.1.role = none := by
  unfold StoredBank.checked
  split
  · rfl
  · rfl
  · rfl
  · split <;> rfl

theorem checkBank (h : I s) (i : BankId) (f : FaultCode) : I (s.checkBank i f) := by
  have held := k.dropRole i (checked_role (s.flash.bank i)) h
  unfold State.checkBank
  dsimp only
  split
  · exact k.raise held _
  · exact held

theorem checkTables (h : I s) : I s.checkTables := by
  refine k.raiseAll ?_ _
  exact k.quiet h rfl rfl

theorem firstSample (h : I s) (mv c : Int) : I (s.firstSample mv c) :=
  k.setTimers (k.tempFault (k.sampleOwn (k.seeVoltage h mv) mv c) c) rfl

/-- Start-up, once its step 1 has loaded the configuration. -/
theorem startUp {br1 br0 above : Bool}
    (loaded : I (State.loadConfig { s with
      link := { s.link with br1 := br1, br0 := br0 }, drive := { s.drive with supplyAbove := above } })) (mv c : Int) :
    I (s.startUp br1 br0 above mv c) := by
  have checked := k.checkTables (k.checkBank (k.checkBank loaded .a .store102) .b .store103)
  exact k.exchange (k.formAll (k.compose allBands (k.firstSample checked mv c)) _) _

end Keeps

/-! ### Configuration writes, resets and the loss of power -/

/-- What more an invariant must be kept by that does not look at the configuration and the timers. -/
structure StartKeeps (I : State → Prop) : Prop extends Keeps I where
  /-- Another configuration record is in force. -/
  setCfg : ∀ {s : State} (c : ConfigRecord), I s → I (s.setCfg c)
  /-- The timers change. -/
  anyTimers : ∀ {s : State} (t : Timers), I s → I (s.setTimers t)
  /-- The clean that waits for its exchange is set aside (R170). -/
  held : ∀ {s : State}, s.drive.granted ≠ none → I s → I s.takeHeldFirst
  /-- Every block at its reset values. -/
  cleared : ∀ (f : Flash) (phase : Phase) (cause : ResetCause), I (.cleared f phase cause)
  /-- Step 1 of start-up sets the geometry (R92, R134, R194). -/
  sized : ∀ {s : State} (wt ht : Nat), s.drive.granted = none → I s →
    I { s with composer := .afterReset wt ht, tiles := .afterReset wt ht }

namespace StartKeeps

variable {I : State → Prop} (k : StartKeeps I) {s : State}
include k

theorem adoptConfig (h : I s) (c : ConfigRecord) : I (s.adoptConfig c) := by
  refine k.setCfg c ?_
  exact k.quiet h rfl rfl

theorem failConfig (h : I s) (d : List Byte) : I (s.failConfig d) := by
  refine k.storeFail ?_ d
  exact k.quiet h rfl rfl

theorem execConfigWriteEnd (h : I s) (verified : Bool) : Next I (Machine.execConfigWriteEnd verified s) := by
  refine .of ?_
  split
  · split
    · exact k.settle (k.answered (k.adoptConfig h _) _ _ fun hu => k.handParam hu (fun _ t => k.anyTimers t hu) _)
    · exact k.failConfig h _
  · exact h

theorem execWindowWriteEnd (h : I s) (verified : Bool) : Next I (Machine.execWindowWriteEnd verified s) := by
  refine .of ?_
  split
  · split
    · exact k.reply (k.adoptConfig h _) _ _
    · exact k.failConfig h _
  · exact h

theorem dropped (s : State) (phase : Phase) (cause : ResetCause) : I (s.dropped phase cause) :=
  k.quiet (k.cleared s.cutWrite.1 phase cause) rfl rfl

theorem loadConfig (granted : s.drive.granted = none) (h : I s) : I s.loadConfig := by
  have loaded : I { s with
      cfg := s.flash.config.loadConfig.1
      timers := .afterReset s.flash.config.loadConfig.1
      composer := .afterReset (s.flash.config.loadConfig.1.param 1) (s.flash.config.loadConfig.1.param 2)
      tiles := .afterReset (s.flash.config.loadConfig.1.param 1) (s.flash.config.loadConfig.1.param 2) } :=
    k.anyTimers _ (k.setCfg _ (k.sized _ _ granted h))
  unfold State.loadConfig
  dsimp only
  split
  · exact k.raise loaded _
  · exact loaded

theorem startUp (s : State) (phase : Phase) (cause : ResetCause) (br1 br0 above : Bool) (mv c : Int) :
    I ((s.dropped phase cause).startUp br1 br0 above mv c) := by
  refine Keeps.startUp k.toKeeps (k.loadConfig rfl ?_) mv c
  exact k.quiet (k.dropped s phase cause) rfl rfl

theorem exec (h : I s) (c : Instr) : Next I (exec c s) := by
  by_cases plain : plainCommand c = true
  · exact k.plain k.held plain h
  · cases c with
    | configWriteEnd verified => exact k.execConfigWriteEnd h verified
    | windowWriteEnd verified => exact k.execWindowWriteEnd h verified
    | powerOnReset br1 br0 above mv c =>
      refine .of ?_
      split
      · exact k.dropped _ _ _
      · exact k.startUp s _ _ _ _ _ _ _
    | lineResetAssert =>
      refine .of ?_
      split
      · exact k.quiet h rfl rfl
      · exact k.quiet (k.dropped s .held .line) rfl rfl
    | lineResetRelease br1 br0 above mv c =>
      refine .of ?_
      split
      · exact k.startUp (s.setLine false) _ _ _ _ _ _ _
      · exact k.quiet h rfl rfl
    | powerLoss => exact .of (k.dropped _ _ _)
    | _ => exact absurd rfl plain

/-- Every step keeps the invariant. -/
theorem step (h : I s) {t : State} (stepped : Machine.step s = .next t) : I t := by
  unfold Machine.step at stepped
  split at stepped
  · cases stepped
    exact h
  · next c rest _ => exact k.exec (s := s.setPending rest) (k.quiet h rfl rfl) c t stepped

end StartKeeps

end Sys2Proof.StepInvariants
end

section
/-! PROOFS. The board's keys and order (01 R2, R4, R7 to R10): what each operation of the board makes of the keys and of the order. -/

namespace Sys2Proof.BoardInvariants

open Sys2Proof Sys2Proof.Machine Sys2Proof.StepInvariants

/-! ### Keys on the board and on the gone list (R2, R8) -/

/-- The keys of the entries, then those of the gone records. -/
def keysOf (b : Board) : List Key := b.entries.map (·.key) ++ b.gone.map (·.key)

theorem placeEntry_perm (e : Entry) (l : List Entry) : (placeEntry e l).Perm (e :: l) := by
  induction l with
  | nil => rfl
  | cons x xs ih =>
    unfold placeEntry
    split
    · rfl
    · exact (ih.cons x).trans (.swap e x xs)

theorem sortEntries_perm (l : List Entry) : (sortEntries l).Perm l := by
  induction l with
  | nil => rfl
  | cons e es ih => exact (placeEntry_perm e _).trans (ih.cons e)

/-- A board is sound whose keys, up to order, stand among those of a list without repetition. -/
theorem sound_of_subperm {b : Board} {l : List Key} (entries : b.entries.length ≤ 32) (gone : b.gone.length ≤ 32)
    (keys : (keysOf b).Subperm l) (distinct : l.Nodup) : b.sound := by
  obtain ⟨_, perm, sub⟩ := keys
  exact ⟨entries, gone, perm.nodup (distinct.sublist sub)⟩

/-- A key that is not found on the board and not gone stands nowhere. -/
theorem not_mem_keysOf {b : Board} {k : Key} (missing : b.find k = none) (present : b.isGone k = false) : k ∉ keysOf b := by
  simp only [keysOf, List.mem_append, List.mem_map, not_or, not_exists, not_and]
  exact ⟨fun e he hk => by simpa [hk] using List.find?_eq_none.mp missing e he,
    fun g hg hk => by simpa [hk] using List.any_eq_false.mp present g hg⟩

/-- An entry placed at a free key, with entries taken away beside it, leaves a sound board (R2, R9). -/
theorem place_sound {b : Board} (sound : b.sound) {e : Entry} {l : List Entry} (sub : l.Sublist b.entries)
    (room : l.length < 32) (fresh : e.key ∉ keysOf b) : Board.sound { b with entries := placeEntry e l } := by
  refine sound_of_subperm (l := e.key :: keysOf b) ?_ sound.2.1 ?_ (List.nodup_cons.mpr ⟨fresh, sound.2.2⟩)
  · simpa using room
  · have placed : (keysOf { b with entries := placeEntry e l }).Perm (e.key :: (l.map (·.key) ++ b.gone.map (·.key))) :=
      ((placeEntry_perm e l).map _).append_right _
    exact placed.subperm.trans ((List.subperm_cons _).mpr ((sub.map _).append_right _).subperm)

/-- Insertion at a free key (R9). -/
theorem insertEntry_sound {s : State} (sound : s.board.sound) {e : Entry} (fresh : e.key ∉ keysOf s.board) :
    (s.insertEntry e).1.board.sound := by
  unfold State.insertEntry
  split
  · next room => exact place_sound sound (.refl _) room fresh
  · split
    · exact sound
    · next l last =>
      split
      · refine place_sound sound (List.dropLast_sublist _) ?_ fresh
        have some : 0 < s.board.entries.length := List.length_pos_iff.mpr fun e => by simp [e] at last
        have := sound.1
        simp only [List.length_dropLast]
        omega
      · exact sound

/-! ### Refill and rebuild (R10, R22) -/

/-- What every insertion at a free key keeps of the board, a refill keeps. -/
theorem refillFrom_keeps {P : Board → Prop}
    (insert : ∀ {s : State} {e : Entry}, P s.board → e.key ∉ keysOf s.board → P (s.insertEntry e).1.board) {s : State}
    (h : P s.board) (r : Roles) : P (s.refillFrom r).1.board := by
  have offers : ∀ (x : Role) (l : List Trip) {a : State × Bool}, P a.1.board → P (l.foldl (State.offerTrip x) a).1.board := by
    intro x l
    induction l with
    | nil => exact id
    | cons t ts ih =>
      intro a ha
      refine ih ?_
      unfold State.offerTrip
      dsimp only
      split
      · next free =>
        simp only [Bool.and_eq_true, Option.isNone_iff_eq_none, Bool.not_eq_true'] at free
        exact insert ha (not_mem_keysOf free.1.2 free.2)
      · exact ha
  unfold State.refillFrom
  split
  · exact offers _ _ (offers _ _ h)
  · exact h

theorem refillFrom_sound {s : State} (sound : s.board.sound) (r : Roles) : (s.refillFrom r).1.board.sound :=
  refillFrom_keeps (P := Board.sound) (fun h fresh => insertEntry_sound h fresh) sound r

theorem rebuildFrom_sound (s : State) (r : Roles) : (s.rebuildFrom r).board.sound :=
  refillFrom_sound (s := s.setBoard ⟨[], []⟩) ⟨by simp, by simp, List.nodup_nil⟩ r

/-! ### Departures (R7) -/

theorem joinGone_length (gone : List Gone) (k : Key) (x : Int) : (joinGone gone k x).length ≤ 32 := by
  simp only [joinGone, List.length_append, List.length_drop, List.length_singleton]
  omega

theorem joinGone_keys (gone : List Gone) (k : Key) (x : Int) :
    ((joinGone gone k x).map (·.key)).Sublist (gone.map (·.key) ++ [k]) := by
  simp only [joinGone, List.map_append]
  exact ((List.drop_sublist _ _).map _).append_right _

theorem departGone_keys (now grace : Int) (gone : List Gone) (e : Entry) :
    ((departGone now grace gone e).map (·.key)).Sublist (gone.map (·.key) ++ [e.key]) := by
  unfold departGone
  split
  · exact List.sublist_append_left _ _
  · exact List.sublist_append_left _ _
  · split
    · exact joinGone_keys _ _ _
    · exact List.sublist_append_left _ _

theorem departGone_length (now grace : Int) {gone : List Gone} (h : gone.length ≤ 32) (e : Entry) :
    (departGone now grace gone e).length ≤ 32 := by
  unfold departGone
  split
  · exact h
  · exact h
  · split
    · exact joinGone_length _ _ _
    · exact h

theorem departGones (now grace : Int) (l : List Entry) {gone : List Gone} (h : gone.length ≤ 32) :
    (l.foldl (departGone now grace) gone).length ≤ 32 ∧
      ((l.foldl (departGone now grace) gone).map (·.key)).Sublist (gone.map (·.key) ++ l.map (·.key)) := by
  induction l generalizing gone with
  | nil => exact ⟨h, by simp⟩
  | cons e es ih =>
    obtain ⟨length, keys⟩ := ih (departGone_length now grace h e)
    refine ⟨length, keys.trans ?_⟩
    simpa using (departGone_keys now grace gone e).append_right (es.map (·.key))

/-- The entries of a list, those with a property moved behind the gone records. -/
theorem filter_keys_perm (p : Entry → Bool) (l : List Entry) (gone : List Key) :
    ((l.filter fun e => !p e).map (·.key) ++ (gone ++ (l.filter p).map (·.key))).Perm (l.map (·.key) ++ gone) := by
  have split : ((l.filter p).map (·.key) ++ (l.filter fun e => !p e).map (·.key)).Perm (l.map (·.key)) := by
    rw [← List.map_append]
    exact (List.filter_append_perm p l).map _
  calc ((l.filter fun e => !p e).map (·.key) ++ (gone ++ (l.filter p).map (·.key))).Perm
        ((l.filter fun e => !p e).map (·.key) ++ ((l.filter p).map (·.key) ++ gone)) := List.perm_append_comm.append_left _
    _ = ((l.filter fun e => !p e).map (·.key) ++ (l.filter p).map (·.key)) ++ gone := (List.append_assoc ..).symm
    List.Perm _ (l.map (·.key) ++ gone) := (List.perm_append_comm.trans split).append_right _

theorem sweepPassed_sound {b : Board} (sound : b.sound) (now grace : Int) : (b.sweepPassed now grace).sound := by
  obtain ⟨length, keys⟩ := departGones now grace (b.entries.filter (Entry.passed now grace)) sound.2.1
  refine sound_of_subperm ?_ length ?_ sound.2.2
  · exact (List.length_filter_le _ _).trans sound.1
  · exact (keys.append_left _).subperm.trans (filter_keys_perm (Entry.passed now grace) _ _).subperm

/-- A key of the board moved behind the gone records. -/
theorem moved_key_subperm {l : List Entry} (gone : List Key) {x : Entry} (mem : x ∈ l) :
    ((l.filter (·.key != x.key)).map (·.key) ++ (gone ++ [x.key])).Subperm (l.map (·.key) ++ gone) := by
  have leaving : [x.key].Sublist ((l.filter fun y => !(y.key != x.key)).map (·.key)) := by
    rw [List.singleton_sublist, List.mem_map]
    exact ⟨x, List.mem_filter.mpr ⟨mem, by simp⟩, rfl⟩
  have moved := filter_keys_perm (fun y => !(y.key != x.key)) l gone
  simp only [Bool.not_not] at moved
  exact ((leaving.append_left _).append_left _).subperm.trans moved.subperm

theorem depart_sound {b : Board} (sound : b.sound) (now grace : Int) {e x : Entry} (mem : x ∈ b.entries) (key : e.key = x.key) :
    (b.depart now grace e).sound := by
  refine sound_of_subperm ((List.length_filter_le _ _).trans sound.1) (departGone_length now grace sound.2.1 e) ?_ sound.2.2
  have gone := departGone_keys now grace b.gone e
  rw [key] at gone
  simp only [keysOf, Board.depart, Board.drop, key]
  exact (gone.append_left _).subperm.trans (moved_key_subperm _ mem)

theorem filter_sound {b : Board} (sound : b.sound) (p : Entry → Bool) : Board.sound { b with entries := b.entries.filter p } :=
  sound_of_subperm ((List.length_filter_le _ _).trans sound.1) sound.2.1
    ((List.filter_sublist.map _).append_right _).subperm sound.2.2

/-- Entries and records that keep their keys, or leave, and stand in any order. -/
theorem resort_sound {b : Board} (sound : b.sound) {l : List Entry} {gone : List Gone}
    (entries : (l.map (·.key)).Sublist (b.entries.map (·.key))) (records : (gone.map (·.key)).Sublist (b.gone.map (·.key))) :
    (Board.mk (sortEntries l) gone).sound := by
  refine sound_of_subperm ?_ ?_ ?_ sound.2.2
  · simpa using entries.length_le.trans (by simpa using sound.1)
  · simpa using records.length_le.trans (by simpa using sound.2.1)
  · exact (((sortEntries_perm l).map _).append_right _).subperm.trans (entries.append records).subperm

theorem lapseEntry_key {now stale : Int} {e x : Entry} (h : lapseEntry now stale e = some x) : x.key = e.key := by
  unfold lapseEntry at h
  split at h
  · split at h
    · split at h
      · cases h
      · cases h
        rfl
    · cases h
      rfl
  · cases h
    rfl

theorem lapsed_keys (now stale : Int) (l : List Entry) :
    ((l.filterMap (lapseEntry now stale)).map (·.key)).Sublist (l.map (·.key)) := by
  induction l with
  | nil => exact .slnil
  | cons e es ih =>
    cases h : lapseEntry now stale e with
    | none => simpa [List.filterMap_cons, h] using ih.cons e.key
    | some x => simpa [List.filterMap_cons, h, lapseEntry_key h] using ih

theorem sweepStale_sound {b : Board} (sound : b.sound) (now stale : Int) : (b.sweepStale now stale).sound :=
  resort_sound sound (lapsed_keys now stale b.entries) (.refl _)

theorem sweep_sound {b : Board} (sound : b.sound) (now grace stale : Int) : (b.sweep now grace stale).sound := by
  obtain ⟨entries, gone, keys⟩ := sweepPassed_sound (sweepStale_sound sound now stale) now grace
  exact sound_of_subperm entries ((List.length_filter_le _ _).trans gone)
    ((List.filter_sublist.map _).append_left _).subperm keys

theorem rebaseGone_keys (gone : List Gone) : ((rebaseGone gone).map (·.key)).Sublist (gone.map (·.key)) := by
  have kept := (List.filter_sublist (p := fun g : Gone => decide (0 ≤ g.expiry))
    (l := gone.map fun g => { g with expiry := g.expiry - 86400 })).map (·.key)
  rwa [List.map_map] at kept

/-- The board of a rollover before its departures (R23). -/
theorem rebased_sound {b : Board} (sound : b.sound) :
    (Board.mk (sortEntries (b.entries.map rebaseEntry)) (rebaseGone b.gone)).sound :=
  resort_sound sound (by rw [List.map_map]; exact .refl _) (rebaseGone_keys _)

theorem rebase_sound {b : Board} (sound : b.sound) (grace : Int) : (b.rebase grace).sound :=
  sweepPassed_sound (rebased_sound sound) 0 grace

/-! ### Prediction records (R15 to R21) -/

theorem change_sound {b : Board} (sound : b.sound) {e x : Entry} (mem : x ∈ b.entries) (key : e.key = x.key) :
    (b.change e).sound := by
  have fewer : (b.entries.filter (·.key != x.key)).length < b.entries.length :=
    List.length_filter_lt_length_iff_exists.mpr ⟨x, mem, by simp⟩
  refine sound_of_subperm ?_ sound.2.1 ?_ sound.2.2
  · have := sound.1
    simp only [Board.change, length_placeEntry, key]
    omega
  · have placed := ((placeEntry_perm e (b.entries.filter (·.key != x.key))).map (·.key)).append_right (b.gone.map (·.key))
    have behind : (x.key :: ((b.entries.filter (·.key != x.key)).map (·.key) ++ b.gone.map (·.key))).Perm
        ((b.entries.filter (·.key != x.key)).map (·.key) ++ (b.gone.map (·.key) ++ [x.key])) := by
      rw [← List.append_assoc]
      exact (List.perm_append_singleton _ _).symm
    simp only [keysOf, Board.change, key]
    rw [List.map_cons, key] at placed
    exact (placed.trans behind).subperm.trans (moved_key_subperm _ mem)

theorem find_spec {b : Board} {k : Key} {e : Entry} (found : b.find k = some e) : e ∈ b.entries ∧ e.key = k :=
  ⟨List.mem_of_find?_eq_some found, by simpa using List.find?_some found⟩

/-- A record joins the gone list under a free key (R21). -/
theorem joinGone_sound {b : Board} (sound : b.sound) {k : Key} (fresh : k ∉ keysOf b) (x : Int) :
    Board.sound { b with gone := joinGone b.gone k x } := by
  refine sound_of_subperm (l := keysOf b ++ [k]) sound.1 (joinGone_length _ _ _) ?_ ?_
  · simp only [keysOf, List.append_assoc]
    exact ((joinGone_keys _ _ _).append_left _).subperm
  · exact (List.perm_append_singleton _ _).symm.nodup (List.nodup_cons.mpr ⟨fresh, sound.2.2⟩)

/-- What a prediction record does to the board: it leaves it, inserts an entry under a free key, makes an entry a departure, changes
or drops one, or adds a free key to the gone list (R15 to R21). -/
inductive RecordWork (s : State) : State → Prop
  | same : RecordWork s s
  | insert (e : Entry) (fresh : e.key ∉ keysOf s.board) : RecordWork s (s.insertEntry e).1
  | depart (e x : Entry) (mem : x ∈ s.board.entries) (key : e.key = x.key) :
    RecordWork s (s.setBoard (s.board.depart s.now s.cfg.grace e))
  | change (e x : Entry) (mem : x ∈ s.board.entries) (key : e.key = x.key) : RecordWork s (s.setBoard (s.board.change e))
  | drop (k : Key) : RecordWork s (s.setBoard (s.board.drop k))
  | gone (k : Key) (x : Int) (fresh : k ∉ keysOf s.board) :
    RecordWork s (s.setBoard { s.board with gone := joinGone s.board.gone k x })

theorem estimateEntry_work {s : State} {e : Entry} (mem : e ∈ s.board.entries) (second : Int) (dest : Option Nat) :
    RecordWork s (s.estimateEntry e second dest).state := by
  unfold State.estimateEntry
  split
  · exact .same
  · split
    · exact .depart e e mem rfl
    · exact .change _ e mem rfl

theorem applyEstimate_work (s : State) (k : Key) (platform : Nat) (second : Int) (dest : Option Nat) :
    RecordWork s (s.applyEstimate k platform second dest).state := by
  unfold State.applyEstimate
  split
  · next found => exact estimateEntry_work (find_spec found).1 second dest
  · next missing =>
    split
    · exact .same
    · next present =>
      have fresh : k ∉ keysOf s.board := not_mem_keysOf missing (by simpa using present)
      split
      · split
        · exact .insert _ fresh
        · exact .same
      · split
        · exact .same
        · split
          · exact .insert _ fresh
          · exact .same

theorem cancelEntry_work {s : State} {e : Entry} (mem : e ∈ s.board.entries) : RecordWork s (s.cancelEntry e).state := by
  unfold State.cancelEntry
  split
  · exact .same
  · split
    · exact .change _ e mem rfl
    · dsimp only
      split
      · exact .depart _ e mem rfl
      · exact .change _ e mem rfl

theorem applyCancel_work (s : State) (k : Key) (platform : Nat) : RecordWork s (s.applyCancel k platform).state := by
  unfold State.applyCancel
  split
  · next found => exact cancelEntry_work (find_spec found).1
  · next missing =>
    split
    · exact .same
    · next present =>
      split
      · split
        · exact .insert _ (not_mem_keysOf missing (by simpa using present))
        · exact .same
      · exact .same

theorem applyRestore_work (s : State) (k : Key) : RecordWork s (s.applyRestore k).state := by
  unfold State.applyRestore
  split
  · exact .same
  · next e found =>
    split
    · split
      · exact .drop k
      · exact .change _ e (find_spec found).1 rfl
    · exact .same

theorem applyDeparted_work (s : State) (k : Key) : RecordWork s (s.applyDeparted k).state := by
  unfold State.applyDeparted
  split
  · next e found => exact .depart e e (find_spec found).1 rfl
  · next missing =>
    split
    · exact .same
    · next present =>
      split
      · split
        · exact .gone k _ (not_mem_keysOf missing (by simpa using present))
        · exact .same
      · exact .same

theorem intake_work (s : State) (r : PredictRecord) : RecordWork s (s.intake r).state := by
  unfold State.intake State.boardRecord
  split
  · split
    · split
      · split
        · exact applyEstimate_work ..
        · exact applyCancel_work ..
        · exact applyDeparted_work ..
        · exact applyRestore_work ..
      · exact .same
    · exact .same
  · exact .same

theorem RecordWork.sound {s t : State} (work : RecordWork s t) (sound : s.board.sound) : t.board.sound := by
  cases work with
  | same => exact sound
  | insert e fresh => exact insertEntry_sound sound fresh
  | depart e x mem key => exact depart_sound sound _ _ mem key
  | change e x mem key => exact change_sound sound mem key
  | drop k => exact filter_sound sound _
  | gone k x fresh => exact joinGone_sound sound fresh x

/-! ### The invariant of the keys -/

/-- An invariant of the board alone is kept by every step once the board's operations keep it. -/
theorem startKeeps_of_board {P : Board → Prop} (k : BoardKeeps fun s => P s.board) (empty : P ⟨[], []⟩) :
    StartKeeps fun s => P s.board :=
  have keeps : Keeps fun s => P s.board :=
    { PanelKeeps.of_front (I := fun s => P s.board) (fun {s t} e h => by
        have board : t.board = s.board := congrArg (fun x => x.2.1) e
        exact board ▸ h), k, ClockKeeps.of_rest (I := fun s => P s.board) (fun _ _ h => h) with
      quiet := fun {s t} h _ e => by
        have board : t.board = s.board := congrArg (fun x => x.2.1) e
        exact board ▸ h }
  { keeps with
    setCfg := fun _ h => h
    anyTimers := fun _ h => h
    held := fun _ h => keeps.takeHeldFirst (fun _ h => h) h
    cleared := fun _ _ _ => empty
    sized := fun _ _ _ h => h }

theorem keys_kept : StartKeeps fun s => s.board.sound :=
  startKeeps_of_board
    { refill := fun r h => refillFrom_sound h r
      rebuild := fun r _ _ => rebuildFrom_sound _ r
      intake := fun {s} r _ h => (intake_work s r).sound h
      sweep := fun _ _ _ h => sweep_sound h _ _ _
      sweepPassed := fun _ _ h => sweepPassed_sound h _ _
      filter := fun p h => filter_sound h p
      rebase := fun _ h => rebase_sound h _ }
    ⟨by simp, by simp, List.nodup_nil⟩

/-- Settles O5: every operation of the board keeps its keys apart. -/
theorem stepKeepsBoardKeysDistinct : Obligations.StepKeepsBoardKeysDistinct :=
  fun _ _ sound stepped => keys_kept.step sound stepped

/-! ### The order of the board (R4) -/

theorem before_iff (a b : Entry) : a.before b = true ↔ a.effective < b.effective ∨ a.effective = b.effective ∧
    (a.key.route < b.key.route ∨ a.key.route = b.key.route ∧ a.key.trip < b.key.trip) := by
  simp [Entry.before]

theorem before_trans {a b c : Entry} (h : a.before b = true) (k : b.before c = true) : a.before c = true := by
  rw [before_iff] at *
  omega

/-- Of two entries with different keys one goes before the other. -/
theorem before_of_not_before {a b : Entry} (h : a.before b ≠ true) (distinct : a.key ≠ b.key) : b.before a = true := by
  have apart : a.key.route ≠ b.key.route ∨ a.key.trip ≠ b.key.trip := by
    by_contra same
    simp only [not_or, not_not] at same
    exact distinct (by cases ha : a.key; cases hb : b.key; simp_all)
  rw [Ne, before_iff] at h
  rw [before_iff]
  omega

/-- Entries in the order of R4. -/
def Ordered (l : List Entry) : Prop := l.Pairwise fun x y => x.before y = true

theorem placeEntry_ordered {l : List Entry} (ordered : Ordered l) {e : Entry} (fresh : ∀ x ∈ l, x.key ≠ e.key) :
    Ordered (placeEntry e l) := by
  induction l with
  | nil => exact List.pairwise_singleton _ _
  | cons x xs ih =>
    obtain ⟨first, rest⟩ := List.pairwise_cons.mp ordered
    unfold placeEntry
    split
    · next before =>
      refine List.pairwise_cons.mpr ⟨fun y hy => ?_, ordered⟩
      obtain rfl | hy := List.mem_cons.mp hy
      · exact before
      · exact before_trans before (first y hy)
    · next after =>
      have behind := before_of_not_before after (fresh x List.mem_cons_self).symm
      refine List.pairwise_cons.mpr ⟨fun y hy => ?_, ih rest fun y hy => fresh y (List.mem_cons_of_mem _ hy)⟩
      obtain rfl | hy := (mem_placeEntry e y xs).mp hy
      · exact behind
      · exact first y hy

theorem sortEntries_ordered {l : List Entry} (distinct : (l.map (·.key)).Nodup) : Ordered (sortEntries l) := by
  induction l with
  | nil => exact List.Pairwise.nil
  | cons e es ih =>
    obtain ⟨fresh, rest⟩ := List.nodup_cons.mp distinct
    refine placeEntry_ordered (ih rest) fun x hx same => fresh ?_
    exact List.mem_map.mpr ⟨x, (mem_sortEntries x es).mp hx, same⟩

theorem not_entry_key {b : Board} {k : Key} (fresh : k ∉ keysOf b) : ∀ x ∈ b.entries, x.key ≠ k := fun x hx same =>
  fresh (List.mem_append_left _ (List.mem_map.mpr ⟨x, hx, same⟩))

theorem insertEntry_ordered {s : State} (ordered : s.board.ordered) {e : Entry} (fresh : e.key ∉ keysOf s.board) :
    (s.insertEntry e).1.board.ordered := by
  have free := not_entry_key fresh
  unfold State.insertEntry
  split
  · exact placeEntry_ordered ordered free
  · split
    · exact ordered
    · split
      · exact placeEntry_ordered (List.Pairwise.sublist (List.dropLast_sublist _) ordered) fun x hx =>
          free x (List.dropLast_subset _ hx)
      · exact ordered

/-- The board is sound and ordered: the order needs the keys apart. -/
def Good (b : Board) : Prop := b.sound ∧ b.ordered

theorem insertEntry_good {s : State} (good : Good s.board) {e : Entry} (fresh : e.key ∉ keysOf s.board) :
    Good (s.insertEntry e).1.board := ⟨insertEntry_sound good.1 fresh, insertEntry_ordered good.2 fresh⟩

theorem refillFrom_good {s : State} (good : Good s.board) (r : Roles) : Good (s.refillFrom r).1.board :=
  refillFrom_keeps (P := Good) (fun h fresh => insertEntry_good h fresh) good r

theorem empty_good : Good ⟨[], []⟩ := ⟨⟨by simp, by simp, List.nodup_nil⟩, List.Pairwise.nil⟩

theorem filter_ordered {b : Board} (ordered : b.ordered) (p : Entry → Bool) : Ordered (b.entries.filter p) :=
  List.Pairwise.sublist List.filter_sublist ordered

theorem change_ordered {b : Board} (ordered : b.ordered) (e : Entry) : (b.change e).ordered :=
  placeEntry_ordered (filter_ordered ordered _) fun x hx => by simpa using (List.mem_filter.mp hx).2

theorem RecordWork.good {s t : State} (work : RecordWork s t) (good : Good s.board) : Good t.board := by
  refine ⟨work.sound good.1, ?_⟩
  cases work with
  | same => exact good.2
  | insert e fresh => exact insertEntry_ordered good.2 fresh
  | depart e x mem key => exact filter_ordered good.2 _
  | change e x mem key => exact change_ordered good.2 e
  | drop k => exact filter_ordered good.2 _
  | gone k x fresh => exact good.2

theorem sweep_good {b : Board} (good : Good b) (now grace stale : Int) : Good (b.sweep now grace stale) := by
  refine ⟨sweep_sound good.1 now grace stale, List.Pairwise.sublist List.filter_sublist ?_⟩
  exact sortEntries_ordered ((List.nodup_append'.mp good.1.2.2).1.sublist (lapsed_keys now stale b.entries))

theorem rebase_good {b : Board} (good : Good b) (grace : Int) : Good (b.rebase grace) := by
  refine ⟨rebase_sound good.1 grace, List.Pairwise.sublist List.filter_sublist (sortEntries_ordered ?_)⟩
  rw [List.map_map]
  exact (List.nodup_append'.mp good.1.2.2).1

theorem order_kept : StartKeeps fun s => Good s.board :=
  startKeeps_of_board
    { refill := fun r h => refillFrom_good h r
      rebuild := fun {_ u} r _ _ => refillFrom_good (s := u.setBoard ⟨[], []⟩) empty_good r
      intake := fun {s} r _ h => (intake_work s r).good h
      sweep := fun _ _ _ h => sweep_good h _ _ _
      sweepPassed := fun _ _ h => ⟨sweepPassed_sound h.1 _ _, filter_ordered h.2 _⟩
      filter := fun p h => ⟨filter_sound h.1 p, filter_ordered h.2 p⟩
      rebase := fun _ h => rebase_good h _ }
    empty_good

/-- Settles O6: every operation of the board keeps its order, the keys being apart. -/
theorem stepKeepsBoardOrdered : Obligations.StepKeepsBoardOrdered :=
  fun _ _ sound ordered stepped => (order_kept.step ⟨sound, ordered⟩ stepped).2

end Sys2Proof.BoardInvariants
end

section
/-! PROOFS. What stands while the clock is UNSET (01 R26, 02 R31, 04 R59), and the periods of the interval timers (04 R68, R69). -/

namespace Sys2Proof.ClockInvariants

open Sys2Proof Sys2Proof.Machine Sys2Proof.StepInvariants

/-! ### While the clock is UNSET (R26, R31, R59) -/

/-- What an UNSET clock asks of the banks and the board. -/
def UnsetFront (running : Bool) (roles : Option Role × Option Role × Bool) (b : Board) : Prop :=
  running = false → roles = (none, none, false) ∧ b.entries = [] ∧ b.gone = []

theorem unsetSound_iff (s : State) : s.unsetSound ↔ UnsetFront s.clockRunning (rolesSeen s.store) s.board := by
  simp only [State.unsetSound, UnsetFront, State.clockRunning, rolesSeen, Option.isSome_eq_false_iff, Option.isNone_iff_eq_none,
    Prod.mk.injEq, and_assoc]

/-- While the clock is RUNNING nothing is asked. -/
theorem unset_of_running {s : State} (running : s.clockRunning = true) : s.unsetSound :=
  (unsetSound_iff s).mpr fun e => by rw [running] at e; cases e

theorem unset_of_same {s t : State} (h : s.unsetSound) (running : t.clockRunning = s.clockRunning)
    (roles : rolesSeen t.store = rolesSeen s.store) (board : t.board = s.board) : t.unsetSound := by
  rw [unsetSound_iff] at *
  rwa [running, roles, board]

/-- A board that is empty wherever the old one is may take its place. -/
theorem unset_setBoard {s : State} (h : s.unsetSound) {b : Board}
    (empty : s.board.entries = [] → s.board.gone = [] → b.entries = [] ∧ b.gone = []) : (s.setBoard b).unsetSound := by
  rw [unsetSound_iff] at *
  intro unset
  obtain ⟨roles, entries, gone⟩ := h unset
  exact ⟨roles, empty entries gone⟩

theorem refillFrom_unset {s : State} (unset : s.clockRunning = false) (r : Roles) : (s.refillFrom r).1 = s := by
  simp [State.refillFrom, unset]

theorem rebuildFrom_unset {s : State} (unset : s.clockRunning = false) (r : Roles) : (s.rebuildFrom r).board = ⟨[], []⟩ :=
  congrArg State.board (refillFrom_unset (s := s.setBoard ⟨[], []⟩) unset r)

theorem sweepPassed_empty {b : Board} (entries : b.entries = []) (gone : b.gone = []) (now grace : Int) :
    (b.sweepPassed now grace).entries = [] ∧ (b.sweepPassed now grace).gone = [] := by
  simp [Board.sweepPassed, entries, gone]

theorem board_keepsUnset : BoardKeeps State.unsetSound where
  refill {s} r h := by
    cases running : s.clockRunning with
    | false => rwa [refillFrom_unset running]
    | true =>
      refine unset_of_running ?_
      rw [(refillFrom_boardWork s r).others]
      exact running
  rebuild {s u} r same h := by
    cases running : s.clockRunning with
    | false =>
      rw [rebuildFrom_unset (same.trans running)]
      exact unset_setBoard h fun _ _ => ⟨rfl, rfl⟩
    | true => exact unset_of_running running
  intake {s} r running _ := by
    refine unset_of_running ?_
    rw [(intake_boardWork s r).others]
    exact running
  sweep {s} now grace stale h := unset_setBoard h fun entries gone => by
    have stale_empty : (s.board.sweepStale now stale).entries = [] := by simp [Board.sweepStale, entries, sortEntries]
    obtain ⟨e, g⟩ := sweepPassed_empty stale_empty gone now grace
    exact ⟨e, by simp [Board.sweep, Board.sweepGone, g]⟩
  sweepPassed _ _ h := unset_setBoard h fun entries gone => sweepPassed_empty entries gone _ _
  filter p h := unset_setBoard h fun entries gone => ⟨by simp [entries], gone⟩
  rebase grace h := unset_setBoard h fun entries gone =>
    sweepPassed_empty (by simp [entries, sortEntries]) (by simp [gone, rebaseGone]) 0 grace

theorem clock_keepsUnset : ClockKeeps State.unsetSound where
  adopt _ _ := unset_of_running rfl
  select _ running _ := unset_of_running running
  dropRole {s x} i role h := by
    intro unset
    obtain ⟨a, b, rest⟩ := h unset
    cases i
    · exact ⟨role, b, rest⟩
    · exact ⟨a, role, rest⟩

theorem unset_kept : StartKeeps State.unsetSound :=
  have same : ∀ {s t : State}, frontSeen t = frontSeen s → s.unsetSound → t.unsetSound := fun e h => by
    simp only [frontSeen, Prod.mk.injEq] at e
    exact unset_of_same h e.1 e.2.2.1 e.2.1
  have keeps : Keeps State.unsetSound :=
    { PanelKeeps.of_front same, board_keepsUnset, clock_keepsUnset with quiet := fun h _ e => same e h }
  { keeps with
    setCfg := fun _ h => h
    anyTimers := fun _ h => h
    held := fun _ h => keeps.takeHeldFirst (fun _ h => h) h
    cleared := fun _ _ _ _ => ⟨rfl, rfl, rfl, rfl, rfl⟩
    sized := fun _ _ _ h => h }

/-- Settles O10: selection and refill run while the clock is RUNNING alone, and all else leaves an UNSET part as empty as it was. -/
theorem stepKeepsUnsetClockWithoutRoles : Obligations.StepKeepsUnsetClockWithoutRoles :=
  fun _ _ sound stepped => unset_kept.step sound stepped

/-! ### The periods (R68, R69) -/

/-- The modes and reload values that a configuration gives (R68). -/
def periodsOf (c : ConfigRecord) : List (TimerMode × Nat) :=
  [(.periodic, 10), (.periodic, c.param 22), (.periodic, c.param 16 * 60), (.oneShot, c.param 27), (.oneShot, 600),
    (.oneShot, c.param 25), (.oneShot, 100)]

theorem timersSound_iff (s : State) : s.timersSound ↔ periods s.timers = periodsOf s.cfg := by
  simp only [State.timersSound, periods, periodsOf, period, List.cons.injEq, Prod.mk.injEq, and_true]

/-- A configuration is in force, and the timers have certain periods. -/
def Runs (c : ConfigRecord) (p : List (TimerMode × Nat)) (s : State) : Prop := s.cfg = c ∧ periods s.timers = p

theorem Runs.sound {c : ConfigRecord} {s : State} (h : Runs c (periodsOf c) s) : s.timersSound := by
  rw [timersSound_iff, h.1, h.2]

theorem runs_of_sound {s : State} (h : s.timersSound) : Runs s.cfg (periodsOf s.cfg) s := ⟨rfl, (timersSound_iff s).mp h⟩

theorem runs_kept (c : ConfigRecord) (p : List (TimerMode × Nat)) : Keeps (Runs c p) :=
  have same : ∀ {s t : State}, frontSeen t = frontSeen s → Runs c p s → Runs c p t := fun e h => by
    simp only [frontSeen, Prod.mk.injEq] at e
    exact ⟨e.2.2.2.2.trans h.1, e.2.2.2.1.trans h.2⟩
  { PanelKeeps.of_front same, BoardKeeps.of_rest (I := Runs c p) (fun _ _ h => h),
    ClockKeeps.of_rest (I := Runs c p) (fun _ _ h => h) with quiet := fun h _ e => same e h }

theorem param_setParam_other (c : ConfigRecord) {id k : Nat} (h : k - 1 ≠ id - 1) (v : BitVec 32) :
    (c.setParam id v).param k = c.param k := by
  simp [ConfigRecord.param, ConfigRecord.setParam, Vector.getD, h.symm]

/-- A parameter that no timer counts by leaves the periods. -/
theorem periodsOf_setParam (c : ConfigRecord) {id : Nat} (h : id ∉ [16, 22, 25, 27]) (v : BitVec 32) :
    periodsOf (c.setParam id v) = periodsOf c := by
  simp only [List.mem_cons, List.not_mem_nil, or_false, not_or] at h
  have other : ∀ k, k ∈ [16, 22, 25, 27] → (c.setParam id v).param k = c.param k := fun k hk =>
    param_setParam_other c (by simp only [List.mem_cons, List.not_mem_nil, or_false] at hk; omega) v
  simp only [periodsOf, other 16 (by simp), other 22 (by simp), other 25 (by simp), other 27 (by simp)]

/-- The owner of a timer's parameter sets the new period, and the others their own. -/
theorem handParam_runs {c : ConfigRecord} {id : Nat} {v : BitVec 32} {u : State}
    (h : Runs (c.setParam id v) (periodsOf c) u) (old : Nat) :
    Runs (c.setParam id v) (periodsOf (c.setParam id v)) (u.handParam id old) := by
  by_cases timed : id ∈ [16, 22, 25, 27]
  · obtain ⟨cfg, running⟩ := h
    have kept : ∀ k, k ∈ [16, 22, 25, 27] → k ≠ id → (c.setParam id v).param k = c.param k := fun k hk other =>
      param_setParam_other c (by simp only [List.mem_cons, List.not_mem_nil, or_false] at hk timed; omega) v
    simp only [periods, periodsOf, period, List.cons.injEq, Prod.mk.injEq, and_true] at running
    simp only [List.mem_cons, List.not_mem_nil, or_false] at timed
    obtain rfl | rfl | rfl | rfl := timed <;> refine ⟨cfg, ?_⟩ <;>
      simp [State.handParam, periods, periodsOf, period, Timer.setReload, running, cfg, kept]
  · rw [periodsOf_setParam c timed]
    exact (runs_kept _ _).handParam h (fun e => absurd e timed) old

theorem adoptConfig_runs {s : State} (h : s.timersSound) (c : ConfigRecord) : Runs c (periodsOf s.cfg) (s.adoptConfig c) :=
  ⟨rfl, (timersSound_iff s).mp h⟩

theorem failConfig_timersSound {s : State} (h : s.timersSound) (d : List Byte) : (s.failConfig d).timersSound := by
  have kept := runs_kept s.cfg (periodsOf s.cfg)
  refine Runs.sound (c := s.cfg) (kept.storeFail ?_ d)
  exact kept.quiet (runs_of_sound h) rfl rfl

theorem execConfigWriteEnd_timersSound {s : State} (h : s.timersSound) (verified : Bool) :
    Next State.timersSound (execConfigWriteEnd verified s) := by
  refine .of ?_
  split
  · next id v _ =>
    split
    · have after := runs_kept (s.cfg.setParam id v) (periodsOf (s.cfg.setParam id v))
      have before := runs_kept (s.cfg.setParam id v) (periodsOf s.cfg)
      refine Runs.sound (c := s.cfg.setParam id v) (after.settle ?_)
      obtain ⟨l, e | e⟩ := eitherOrder_cases (s.adoptConfig (s.cfg.setParam id v))
        (fun t => t.reply .ok (t.cfg.paramData id)) (fun t => t.handParam id (s.cfg.param id)) <;> rw [e]
      · refine after.reply (handParam_runs ?_ _) _ _
        exact adoptConfig_runs h _
      · refine handParam_runs (before.reply ?_ _ _) _
        exact adoptConfig_runs h _
    · exact failConfig_timersSound h _
  · exact h

theorem execWindowWriteEnd_timersSound {s : State} (h : s.timersSound) (verified : Bool) :
    Next State.timersSound (execWindowWriteEnd verified s) := by
  refine .of ?_
  split
  · next i w _ =>
    split
    · have kept := runs_kept (s.cfg.setWindow i w) (periodsOf s.cfg)
      have answered := kept.reply (adoptConfig_runs h _) .ok ((s.adoptConfig (s.cfg.setWindow i w)).cfg.windowData i)
      exact Runs.sound (c := s.cfg.setWindow i w) answered
    · exact failConfig_timersSound h _
  · exact h

theorem dropped_timersSound (s : State) (phase : Phase) (cause : ResetCause) : (s.dropped phase cause).timersSound :=
  (timersSound_iff _).mpr rfl

theorem loadConfig_runs (s : State) :
    Runs s.flash.config.loadConfig.1 (periodsOf s.flash.config.loadConfig.1) s.loadConfig := by
  unfold State.loadConfig
  dsimp only
  split <;> exact ⟨rfl, rfl⟩

theorem startUp_timersSound (s : State) (br1 br0 above : Bool) (mv c : Int) : (s.startUp br1 br0 above mv c).timersSound :=
  ((runs_kept _ _).startUp (loadConfig_runs _) mv c).sound

/-- Settles O12: a command either leaves the configuration and the periods, or sets the periods that the new one gives. -/
theorem stepKeepsTimerPeriods : Obligations.StepKeepsTimerPeriods := by
  intro s t sound stepped
  have kept := runs_kept s.cfg (periodsOf s.cfg)
  unfold step at stepped
  split at stepped
  · cases stepped
    exact sound
  · next c rest _ =>
    by_cases plain : plainCommand c = true
    · have held : ∀ {u : State}, u.drive.granted ≠ none → Runs s.cfg (periodsOf s.cfg) u →
          Runs s.cfg (periodsOf s.cfg) u.takeHeldFirst := fun _ h => kept.takeHeldFirst (fun _ h => h) h
      have runs : Runs s.cfg (periodsOf s.cfg) (s.setPending rest) := runs_of_sound sound
      exact (kept.plain held plain runs t stepped).sound
    · have answered : Next State.timersSound (exec c (s.setPending rest)) := by
        cases c with
        | configWriteEnd verified => exact execConfigWriteEnd_timersSound (s := s.setPending rest) sound verified
        | windowWriteEnd verified => exact execWindowWriteEnd_timersSound (s := s.setPending rest) sound verified
        | powerOnReset br1 br0 above mv c =>
          refine .of ?_
          split
          · exact dropped_timersSound _ _ _
          · exact startUp_timersSound _ _ _ _ _ _
        | lineResetAssert =>
          refine .of ?_
          split
          · exact sound
          · exact dropped_timersSound (s.setPending rest) .held .line
        | lineResetRelease br1 br0 above mv c =>
          refine .of ?_
          split
          · exact startUp_timersSound _ _ _ _ _ _
          · exact sound
        | powerLoss => exact .of (dropped_timersSound _ _ _)
        | _ => exact absurd rfl plain
      exact answered t stepped

end Sys2Proof.ClockInvariants
end

section
/-! PROOFS. The reset state (12 R193), a raised fault (11 R174), the transmitter and RESET (12 R187, R192), and a second of the
crystal (04 R67, 08 R118). -/

namespace Sys2Proof.ResetAndReplies

open Sys2Proof Sys2Proof.Machine

/-! ### The reset state (R193) -/

theorem reset_tile {t : Tile} (h : t ∈ State.reset.tiles.tiles) : t = .unknown none := List.eq_of_mem_replicate (n := 16 * 9) h

theorem reset_imageSound : State.reset.imageSound := by
  refine ⟨List.length_replicate, List.length_replicate, List.length_replicate, fun i t w present wanted => ?_⟩
  rw [reset_tile (List.mem_of_getElem? present)] at wanted
  cases wanted

theorem reset_glyphsSound : State.reset.glyphsSound := ⟨nofun, nofun⟩

/-- Settles O3, field by field from the reset values. -/
theorem resetStateIsClearAndSound : Obligations.ResetStateIsClearAndSound := by
  refine ⟨⟨rfl, rfl, rfl, rfl⟩, ⟨rfl, rfl, rfl⟩, ⟨rfl, rfl, rfl, rfl⟩, ⟨rfl, rfl⟩, ⟨rfl, rfl, fun t => reset_tile⟩, rfl,
    ⟨rfl, rfl, rfl, rfl, rfl, rfl⟩, ⟨rfl, rfl⟩, ⟨rfl, rfl, rfl, rfl, rfl, rfl, rfl⟩, Nat.zero_le _,
    ⟨Nat.zero_le _, Nat.zero_le _, List.nodup_nil⟩, .nil, ⟨Nat.zero_le _, List.nodup_nil, nofun, nofun⟩, reset_imageSound,
    ⟨fun _ => rfl, nofun, nofun, nofun⟩, fun _ => ⟨rfl, rfl, rfl, rfl, rfl⟩,
    ⟨ConfigurationAndEstimate.defaults_inRange, nofun⟩, ⟨⟨rfl, rfl⟩, ⟨rfl, rfl⟩, ⟨rfl, rfl⟩, ⟨rfl, rfl⟩, ⟨rfl, rfl⟩, ⟨rfl, rfl⟩, rfl, rfl⟩,
    reset_flash_sound, reset_glyphsSound, ⟨fun t h => ?_, Nat.zero_le _⟩, Nat.zero_le _, rfl⟩
  rw [reset_tile h]
  exact Nat.zero_le _

/-! ### A raised fault (R174) -/

theorem isLatched_iff (f : FaultUnit) (c : FaultClass) : f.isLatched c = true ↔ f.latched &&& c.bit ≠ 0 := by
  simp [FaultUnit.isLatched]

/-- Settles O24, step by step. -/
theorem raiseFollowsFourSteps : Obligations.RaiseFollowsFourSteps := by
  intro s c
  refine ⟨s.faults.raise c s.clock.stamp, rfl, rfl, fun old => ?_, fun new => ?_, rfl, fun empty => ?_, fun filled => ?_,
    fun below => ?_, fun top => ?_, rfl⟩
  · exact if_pos ((isLatched_iff _ _).mpr old)
  · exact if_neg (by simpa [isLatched_iff] using new)
  · simp [FaultUnit.raise, empty]
  · obtain ⟨r, hr⟩ := Option.ne_none_iff_exists'.mp filled
    simp [FaultUnit.raise, hr]
  · exact Nat.min_eq_left (by omega)
  · exact Nat.min_eq_right (by omega)

/-! ### Replies and RESET (R187, R192) -/

/-- Settles O18: a sent reply is the first of those that wait, and RESET answers before anything else of its own. -/
theorem repliesLeaveInOrderAndResetComesFirst : Obligations.RepliesLeaveInOrderAndResetComesFirst := by
  refine ⟨fun s r rest waiting => ?_, fun s r rest head kind payload => ?_⟩
  · change Host.Outcome.next _ = _
    rw [waiting]
    rfl
  · have taken := take_work head (kind := 0x13) (by rw [kind]; rfl) (by rw [payload]; rfl) fun _ s =>
      let t := s.reply .ok []
      { t with link := { t.link with resetAfter := some t.link.replies.length }, resetRoles := s.store.roles }
    refine ⟨_, rfl, ?_, ?_⟩
    · rw [taken]
      simp [State.takesRequests]
    · rw [taken]
      simp only [reply_answered head.2, Link.answered, List.length_append, List.length_singleton]
      rfl

/-! ### A second of the crystal (R67, R118) -/

theorem count_eq (x : Timer) : x.count = if x.running then { x with remaining := x.remaining - 1 } else x := by
  obtain ⟨_, _, _, running⟩ := x
  cases running <;> rfl

/-- Settles O40: the elapsed-second count goes up, and each timer that counts in seconds comes one nearer to zero. -/
theorem elapsedSecondCounts : Obligations.ElapsedSecondCounts := by
  intro s
  have counted : ∀ x : Timer, (if x.running then { x with remaining := x.remaining - 1 } else x) = x.count :=
    fun x => (count_eq x).symm
  simp only [counted]
  refine ⟨fun powered below => ?_, fun powered top => ⟨Config.elapsedAfterTop.toNat, by omega, ?_⟩, fun off => ?_⟩
  · simp only [exec, execElapsedSecond, powered, if_true, nextElapsed, if_neg below]
    rfl
  · simp only [exec, execElapsedSecond, powered, if_true, nextElapsed, if_pos top]
    rfl
  · simp [exec, execElapsedSecond, off]

end Sys2Proof.ResetAndReplies
end

section
/-! PROOFS. The refresh queue with the job in hand (08 R118, 09 R149, 10 R155), and the wanted signatures of the kept pixels
(05 R90, R91; 08 R116, R129). -/

namespace Sys2Proof.PanelInvariants

open Sys2Proof Sys2Proof.Machine Sys2Proof.StepInvariants

/-! ### A queue with its job in hand (R118, R149, R155) -/

/-- A queue of jobs beside the number that the Panel Drive holds. -/
structure QueueGood (jobs : List Job) (granted : Option Nat) : Prop where
  room : jobs.length ≤ 16
  distinct : (jobs.map (·.num)).Nodup
  hand : ∀ j ∈ jobs, j.inHand = true ↔ granted = some j.num
  held : ∀ n, granted = some n → ∃ j ∈ jobs, j.num = n

theorem queueSound_iff (s : State) : s.queueSound ↔ QueueGood s.tiles.jobs s.drive.granted :=
  ⟨fun ⟨a, b, c, d⟩ => ⟨a, b, c, d⟩, fun ⟨a, b, c, d⟩ => ⟨a, b, c, d⟩⟩

section Queue

variable {jobs : List Job} {granted : Option Nat}

/-- A QUEUED job joins under a free number. -/
theorem QueueGood.join (good : QueueGood jobs granted) (room : jobs.length < 16) {j : Job} (queued : j.state = .queued)
    (free : ∀ o ∈ jobs, o.num ≠ j.num) : QueueGood (jobs ++ [j]) granted where
  room := by simpa using room
  distinct := by
    rw [List.map_append]
    exact (List.perm_append_singleton _ _).symm.nodup
      (List.nodup_cons.mpr ⟨fun h => by obtain ⟨o, ho, e⟩ := List.mem_map.mp h; exact free o ho e, good.distinct⟩)
  hand k hk := by
    obtain hk | hk := List.mem_append.mp hk
    · exact good.hand k hk
    · obtain rfl := List.mem_singleton.mp hk
      constructor
      · intro h
        simp [Job.inHand, queued] at h
      · intro h
        obtain ⟨o, ho, e⟩ := good.held _ h
        exact absurd e (free o ho)
  held n h := by
    obtain ⟨o, ho, e⟩ := good.held n h
    exact ⟨o, List.mem_append_left _ ho, e⟩

/-- Jobs that are not in hand leave. -/
theorem QueueGood.filter (good : QueueGood jobs granted) {p : Job → Bool} (kept : ∀ j ∈ jobs, j.inHand = true → p j = true) :
    QueueGood (jobs.filter p) granted where
  room := (List.length_filter_le _ _).trans good.room
  distinct := good.distinct.sublist (List.filter_sublist.map _)
  hand j hj := good.hand j (List.mem_filter.mp hj).1
  held n h := by
    obtain ⟨j, hj, e⟩ := good.held n h
    exact ⟨j, List.mem_filter.mpr ⟨hj, kept j hj ((good.hand j hj).mpr (e ▸ h))⟩, e⟩

/-- Jobs change and keep their numbers; those then in hand are the one the Panel Drive then holds. -/
theorem QueueGood.change (good : QueueGood jobs granted) {f : Job → Job} {g : Option Nat} (num : ∀ j, (f j).num = j.num)
    (hand : ∀ j ∈ jobs, (f j).inHand = true ↔ g = some j.num) (held : ∀ n, g = some n → ∃ j ∈ jobs, j.num = n) :
    QueueGood (jobs.map f) g where
  room := by simpa using good.room
  distinct := by simpa [Function.comp_def, num] using good.distinct
  hand k hk := by
    obtain ⟨j, hj, rfl⟩ := List.mem_map.mp hk
    simpa [num] using hand j hj
  held n h := by
    obtain ⟨j, hj, e⟩ := held n h
    exact ⟨f j, List.mem_map.mpr ⟨j, hj, rfl⟩, (num j).trans e⟩

/-- The job in hand leaves the queue and the Panel Drive. -/
theorem QueueGood.leave {n : Nat} (good : QueueGood jobs (some n)) : QueueGood (jobs.filter fun k => k.num != n) none where
  room := (List.length_filter_le _ _).trans good.room
  distinct := good.distinct.sublist (List.filter_sublist.map _)
  hand j hj := by
    obtain ⟨mem, other⟩ := List.mem_filter.mp hj
    have idle : ¬j.inHand = true := fun h => by
      have e := Option.some.inj ((good.hand j mem).mp h)
      simp [e] at other
    simp [idle]
  held n h := by cases h

/-- Of jobs that are all in hand there is one at most. -/
theorem QueueGood.length_le_one (good : QueueGood jobs granted) (hand : ∀ j ∈ jobs, j.inHand = true) : jobs.length ≤ 1 := by
  match jobs, good, hand with
  | [], _, _ => exact Nat.zero_le _
  | [_], _, _ => exact Nat.le_refl _
  | a :: b :: rest, good, hand =>
    have ha := (good.hand a (by simp)).mp (hand a (by simp))
    have hb := (good.hand b (by simp)).mp (hand b (by simp))
    have same : a.num = b.num := Option.some.inj (ha.symm.trans hb)
    exact absurd good.distinct (by simp [same])

end Queue

/-! ### The Tile Map's operations on the queue -/

theorem queueSpans_good {band : JobClass} {old : List Job} {r : Nat} (spans : List (Nat × Nat)) {tm : TileMap}
    {granted : Option Nat} (good : QueueGood tm.jobs granted) :
    QueueGood (TileMap.queueSpans band old r tm spans).jobs granted := by
  induction spans generalizing tm with
  | nil => exact good
  | cons p rest ih =>
    obtain ⟨f, l⟩ := p
    unfold TileMap.queueSpans
    split
    · next room => exact ih (good.join room rfl (Formation.lowestFree_lowest room).1)
    · exact good

theorem formRow_good {tm : TileMap} {granted : Option Nat} (good : QueueGood tm.jobs granted) (band : JobClass) (r : Nat) :
    QueueGood (tm.formRow band r).1.jobs granted := by
  unfold TileMap.formRow
  split
  · exact good
  · refine queueSpans_good _ (good.filter fun j _ hand => ?_)
    cases h : j.state <;> simp_all [Job.inHand, Job.waitsInRow]

theorem queueClean_good {tm : TileMap} {granted : Option Nat} (good : QueueGood tm.jobs granted) :
    QueueGood tm.queueClean.1.jobs granted := by
  unfold TileMap.queueClean
  split
  · exact good
  · have kept : QueueGood (tm.jobs.filter fun j => !(j.state == .queued)) granted := good.filter fun j _ hand => by
      cases h : j.state <;> simp_all [Job.inHand]
    have one := kept.length_le_one fun j hj => by
      have waits := (List.mem_filter.mp hj).2
      cases h : j.state <;> simp_all [Job.inHand]
    have room : (tm.jobs.filter fun j => !(j.state == .queued)).length < 16 := by omega
    exact kept.join room rfl (Formation.lowestFree_lowest room).1

theorem job_spec {tm : TileMap} {n : Nat} {j : Job} (h : tm.job n = some j) : j ∈ tm.jobs ∧ j.num = n :=
  ⟨List.mem_of_find?_eq_some h, by simpa using List.find?_some h⟩

theorem changeJob_num {f : Job → Job} (num : ∀ j, (f j).num = j.num) (n : Nat) (j : Job) :
    (if j.num = n then f j else j).num = j.num := by
  split
  · exact num j
  · rfl

/-- The job in hand changes and stays in hand, or no job's state changes. -/
theorem changeJob_good {tm : TileMap} {granted : Option Nat} (good : QueueGood tm.jobs granted) (n : Nat) {f : Job → Job}
    (num : ∀ j, (f j).num = j.num) (hand : ∀ j ∈ tm.jobs, j.num = n → ((f j).inHand = true ↔ granted = some n)) :
    QueueGood (tm.changeJob n f).jobs granted := by
  refine good.change (changeJob_num num n) (fun j hj => ?_) good.held
  split
  · next e => rw [hand j hj e, e]
  · exact good.hand j hj

theorem queue_keeps : PanelKeeps State.queueSound where
  compose {s} b h := by
    obtain ⟨_, _, _, _, e⟩ := compose_eq s b
    rw [e]
    exact h
  formRow {s} r h := (queueSound_iff _).mpr (formRow_good ((queueSound_iff s).mp h) _ r)
  queueClean {s} h := (queueSound_iff _).mpr (queueClean_good ((queueSound_iff s).mp h))
  glass _ h := h
  rows _ h := h
  grantJob {s j} idle mem queued h := by
    have good := (queueSound_iff s).mp h
    refine (queueSound_iff _).mpr (good.change
      (changeJob_num (f := fun k => { k with state := .granted }) (fun _ => rfl) j.num) (fun k hk => ?_) fun n e => ?_)
    · have waits := List.find?_eq_none.mp idle k hk
      split
      · next e => simp [Job.inHand, e]
      · next e => simpa [waits] using fun e' => e e'.symm
    · exact ⟨j, mem, Option.some.inj e⟩
  rebuilt {s} wt ht n h := by
    have good := (queueSound_iff s).mp h
    refine (queueSound_iff _).mpr (changeJob_good (tm := s.tiles) good n (fun _ => rfl) fun j hj e => ?_)
    exact e ▸ good.hand j hj
  startJob {s j} started h := by
    have good := (queueSound_iff s).mp h
    obtain ⟨n, granted, job⟩ := Option.bind_eq_some_iff.mp started
    refine (queueSound_iff _).mpr (changeJob_good (tm := s.tiles) good j.num (fun _ => rfl) fun k hk e => ?_)
    simp [Job.inHand, granted, (job_spec job).2]
  endJob {s n l} granted _ h := by
    have good := (queueSound_iff s).mp h
    rw [granted] at good
    exact (queueSound_iff _).mpr good.leave
  requeue {s n} granted h := by
    have good := (queueSound_iff s).mp h
    refine (queueSound_iff _).mpr (good.change
      (changeJob_num (f := fun k => { k with state := .queued }) (fun _ => rfl) n) (fun j hj => ?_) nofun)
    have own := good.hand j hj
    rw [granted] at own
    split
    · simp [Job.inHand]
    · next e => simpa using fun hand => e (Option.some.inj (own.mp hand)).symm
  clearQueue _ _ := (queueSound_iff _).mpr ⟨Nat.zero_le _, List.nodup_nil, nofun, nofun⟩

/-! ### The clean that waits for its exchange is set aside (R170) -/

/-- The Panel Drive holds no job while the queue has one in hand: no event at the Panel Drive then touches the queue. -/
def SetAside (jobs : List Job) (s : State) : Prop :=
  s.tiles.jobs = jobs ∧ s.drive.granted = none ∧ s.tiles.handJob.isSome = true

theorem attempt_of_handJob {s : State} (h : s.tiles.handJob.isSome = true) : s.attempt = s := by
  simp [State.attempt, State.chooseJob, h]

theorem returnGranted_of_none {s : State} (h : s.drive.granted = none) : s.returnGranted = s := by
  simp [State.returnGranted, h]

theorem takeBrownout_aside {jobs : List Job} {s : State} (h : SetAside jobs s) : SetAside jobs s.takeBrownout := by
  obtain ⟨same, granted, hand⟩ := h
  unfold State.takeBrownout
  split
  · exact ⟨same, granted, hand⟩
  · dsimp only
    rw [returnGranted_of_none (by exact granted), attempt_of_handJob (by exact hand)]
    exact ⟨same, granted, hand⟩
  · exact ⟨same, granted, hand⟩
  · exact ⟨same, granted, hand⟩

theorem takeSupplyRise_aside {jobs : List Job} {s : State} (h : SetAside jobs s) : SetAside jobs s.takeSupplyRise := by
  unfold State.takeSupplyRise
  rw [if_neg (by simp [h.2.1])]
  exact h

theorem takeLingerExpiry_aside {jobs : List Job} {s : State} (h : SetAside jobs s) : SetAside jobs s.takeLingerExpiry := by
  unfold State.takeLingerExpiry
  split <;> exact h

theorem takeFrameEnd_aside {jobs : List Job} {s : State} (h : SetAside jobs s) : SetAside jobs s.takeFrameEnd := by
  obtain ⟨same, granted, hand⟩ := h
  unfold State.takeFrameEnd
  split
  · exact ⟨same, granted, hand⟩
  · split
    · unfold State.endCutFrame
      dsimp only
      split <;> (rw [if_neg (by simp [State.raise, State.setDrive, Drive.lowered, Drive.raised, granted])]; exact ⟨same, granted, hand⟩)
    · simp only [State.abortDrive, State.completeDrive, State.setDrive_drive, granted]
      split
      · exact ⟨same, rfl, hand⟩
      · split <;> exact ⟨same, rfl, hand⟩

theorem driveEvent_aside {jobs : List Job} {s : State} (h : SetAside jobs s) {e : DriveEvent} (he : e ≠ .requestReset) :
    SetAside jobs (s.driveEvent e) := by
  unfold State.driveEvent
  split
  · exact h
  · cases e with
    | brownout => exact takeBrownout_aside h
    | supplyRise => exact takeSupplyRise_aside h
    | lingerExpiry => exact takeLingerExpiry_aside h
    | frameEnd => exact takeFrameEnd_aside h
    | requestReset => exact absurd rfl he

theorem driveEvents_aside {jobs : List Job} (l : List DriveEvent) {s : State} (h : SetAside jobs s)
    (hl : ∀ e ∈ l, e ≠ .requestReset) : SetAside jobs (s.driveEvents l) := by
  induction l generalizing s with
  | nil => exact h
  | cons e es ih =>
    exact ih (driveEvent_aside h (hl e List.mem_cons_self)) fun x hx => hl x (List.mem_cons_of_mem _ hx)

theorem takeHeldFirst_queueSound {s : State} (granted : s.drive.granted ≠ none) (h : s.queueSound) : s.takeHeldFirst.queueSound := by
  have good := (queueSound_iff s).mp h
  obtain ⟨n, hn⟩ := Option.ne_none_iff_exists'.mp granted
  obtain ⟨j, mem, num⟩ := good.held n hn
  have hand : s.tiles.handJob.isSome = true := List.find?_isSome.mpr ⟨j, mem, (good.hand j mem).mpr (num ▸ hn)⟩
  have aside := driveEvents_aside (jobs := s.tiles.jobs) (s.drive.held.takeWhile (· != .requestReset))
    (s := s.setDrive { s.drive with granted := none, held := [] }) ⟨rfl, rfl, hand⟩
    fun e he => by simpa using List.mem_takeWhile_imp he
  refine (queueSound_iff _).mpr ?_
  unfold State.takeHeldFirst
  rw [show ∀ (u : State) d, (u.setDrive d).tiles = u.tiles from fun _ _ => rfl, aside.1]
  exact good

theorem queue_kept : StartKeeps State.queueSound :=
  { queue_keeps, BoardKeeps.of_rest (I := State.queueSound) (fun _ _ h => h),
    ClockKeeps.of_rest (I := State.queueSound) (fun _ _ h => h) with
    quiet := fun {s t} h e _ => by
      simp only [panelSeen, mapSeen, Prod.mk.injEq] at e
      rw [queueSound_iff, e.2.1.2.2.2, e.2.2]
      exact (queueSound_iff s).mp h
    setCfg := fun _ h => h
    anyTimers := fun _ h => h
    held := takeHeldFirst_queueSound
    cleared := fun _ _ _ => (queueSound_iff _).mpr ⟨Nat.zero_le _, List.nodup_nil, nofun, nofun⟩
    sized := fun {s} _ _ granted _ => (queueSound_iff _).mpr (by
      rw [show ({ s with composer := _, tiles := _ } : State).drive.granted = none from granted]
      exact ⟨Nat.zero_le _, List.nodup_nil, nofun, nofun⟩) }

/-- Settles O7: the queue's operations keep the numbers apart, and the Panel Drive's job is the one in hand. -/
theorem stepKeepsRefreshQueueSound : Obligations.StepKeepsRefreshQueueSound :=
  fun _ _ sound stepped => queue_kept.step sound stepped

/-! ### Wanted signatures and kept pixels (R90, R91) -/

/-- Every wanted signature is that of the pixels kept at its place. -/
def PixelsKept (tiles : List Tile) (pixels : List (Option TilePixels)) : Prop :=
  ∀ (i : Nat) (w : Signature), (tiles.map (·.wanted))[i]? = some (some w) →
    ∃ px, pixels[i]? = some (some px) ∧ signature px = w

theorem imageSound_iff (s : State) : s.imageSound ↔
    s.tiles.tiles.length = s.tiles.wt * s.tiles.ht ∧ s.composer.pixels.length = s.tiles.wt * s.tiles.ht ∧
      s.composer.rows.length = s.tiles.ht - 2 ∧ PixelsKept s.tiles.tiles s.composer.pixels := by
  refine and_congr_right fun _ => and_congr_right fun _ => and_congr_right fun _ => ⟨fun h i w e => ?_, fun h i t w ht hw => ?_⟩
  · rw [List.getElem?_map, Option.map_eq_some_iff] at e
    obtain ⟨t, ht, hw⟩ := e
    exact h i t w ht hw
  · exact h i w (by simp [ht, hw])

/-- Nothing that the wanted signatures and the geometry show has changed. -/
theorem imageSound_of_same {s t : State} (h : s.imageSound) (wt : t.tiles.wt = s.tiles.wt) (ht : t.tiles.ht = s.tiles.ht)
    (wanted : t.tiles.tiles.map (·.wanted) = s.tiles.tiles.map (·.wanted)) (pixels : t.composer.pixels = s.composer.pixels)
    (rows : t.composer.rows.length = s.composer.rows.length) : t.imageSound := by
  rw [imageSound_iff] at *
  have length : t.tiles.tiles.length = s.tiles.tiles.length := by simpa using congrArg List.length wanted
  unfold PixelsKept at *
  rwa [length, wt, ht, wanted, pixels, rows]

/-- Tiles and pixels of one length that agree. -/
def Matched (n : Nat) (tiles : List Tile) (pixels : List (Option TilePixels)) : Prop :=
  tiles.length = n ∧ pixels.length = n ∧ PixelsKept tiles pixels

theorem write_matched {n : Nat} {w : Written} (h : Matched n w.tiles w.pixels) (i : Nat) (px : TilePixels) :
    Matched n (w.write i px).tiles (w.write i px).pixels := by
  unfold Written.write
  split
  · exact h
  · next t present =>
    obtain ⟨tiles, pixels, kept⟩ := h
    split
    · exact ⟨tiles, pixels, kept⟩
    · refine ⟨by simpa using tiles, by simpa using pixels, fun k x e => ?_⟩
      have inside : i < w.tiles.length := (List.getElem?_eq_some_iff.mp present).1
      by_cases same : i = k
      · subst same
        simp only [List.map_set, List.getElem?_set_self (by simpa using inside : i < (w.tiles.map (·.wanted)).length),
          Option.some.injEq] at e
        exact ⟨px, by simp [List.getElem?_set_self (by omega : i < w.pixels.length)], e⟩
      · simp only [List.map_set, List.getElem?_set_ne same] at e ⊢
        exact kept k x e

theorem writeTiles_matched {n : Nat} {w : Written} (h : Matched n w.tiles w.pixels) (i tiles : Nat) (image : List Nat) (k : Nat) :
    Matched n (w.writeTiles i tiles image k).tiles (w.writeTiles i tiles image k).pixels := by
  induction k with
  | zero => exact h
  | succ k ih => exact write_matched ih _ _

theorem writeImages_matched {n : Nat} (wt : Nat) (l : List (BandPart × List Nat × Nat)) {tiles : List Tile}
    {pixels : List (Option TilePixels)} (h : Matched n tiles pixels) :
    Matched n (writeImages wt tiles pixels l).1 (writeImages wt tiles pixels l).2.1 := by
  induction l generalizing tiles pixels with
  | nil => exact h
  | cons q rest ih =>
    obtain ⟨p, image, k⟩ := q
    exact ih (writeTiles_matched (w := ⟨tiles, pixels, false⟩) h _ _ _ _)

theorem evaluated_imageSound {s : State} (h : s.imageSound) (b : Bands) : (s.evaluated b).imageSound := by
  unfold State.evaluated
  split
  · exact imageSound_of_same h rfl rfl rfl rfl (evaluate_length s)
  · exact h

theorem compose_imageSound {s : State} (h : s.imageSound) (b : Bands) : (s.compose b).1.imageSound := by
  obtain ⟨tiles, pixels, rows, kept⟩ := (imageSound_iff _).mp (evaluated_imageSound h b)
  have written := writeImages_matched (s.evaluated b).tiles.wt
    ((s.evaluated b).renderParts ((s.evaluated b).bandParts b)).2 ⟨tiles, pixels, kept⟩
  rw [imageSound_iff]
  unfold State.compose
  dsimp only
  rw [raiseAll_eq]
  exact ⟨written.1, written.2.1, rows, written.2.2⟩

theorem queueClean_wanted (tm : TileMap) : tm.queueClean.1.tiles.map (·.wanted) = tm.tiles.map (·.wanted) ∧
    tm.queueClean.1.wt = tm.wt ∧ tm.queueClean.1.ht = tm.ht := by
  refine ⟨?_, (queueClean_sameGlass tm).wt, (queueClean_sameGlass tm).ht⟩
  unfold TileMap.queueClean
  split
  · rfl
  · refine (map_wanted (fun t => ?_) _).trans (map_wanted (fun t => ?_) _)
    · split <;> rfl
    · split
      · rfl
      · split <;> rfl

/-- A panel whose tiles want nothing yet (R92, R129). -/
theorem imageSound_of_blank {s : State} {wt ht : Nat} {job : Option Nat} (hwt : s.tiles.wt = wt) (hht : s.tiles.ht = ht)
    (tiles : s.tiles.tiles = List.replicate (wt * ht) (.unknown job)) (composer : s.composer = .afterReset wt ht) :
    s.imageSound := by
  rw [imageSound_iff, hwt, hht, tiles, composer]
  refine ⟨List.length_replicate, List.length_replicate, List.length_replicate, fun i w e => ?_⟩
  rw [List.map_replicate] at e
  have := List.eq_of_mem_replicate (List.mem_of_getElem? e)
  cases this

theorem image_keeps : PanelKeeps State.imageSound where
  compose b h := compose_imageSound h b
  formRow {s} r h := imageSound_of_same h (formRow_geometry s.tiles _ r).1 (formRow_geometry s.tiles _ r).2
    (formRow_wanted s.tiles _ r) rfl rfl
  queueClean {s} h := imageSound_of_same h (queueClean_wanted s.tiles).2.1 (queueClean_wanted s.tiles).2.2
    (queueClean_wanted s.tiles).1 rfl rfl
  glass wanted h := imageSound_of_same h rfl rfl wanted rfl rfl
  rows length h := imageSound_of_same h rfl rfl rfl rfl length
  grantJob _ _ _ h := imageSound_of_same h rfl rfl rfl rfl rfl
  rebuilt wt ht n _ := imageSound_of_blank (wt := wt) (ht := ht) rfl rfl rfl rfl
  startJob _ h := imageSound_of_same h rfl rfl rfl rfl rfl
  endJob _ wanted h := imageSound_of_same h rfl rfl wanted rfl rfl
  requeue _ h := imageSound_of_same h rfl rfl rfl rfl rfl
  clearQueue wanted h := imageSound_of_same h rfl rfl wanted rfl rfl

theorem image_kept : StartKeeps State.imageSound :=
  have keeps : Keeps State.imageSound :=
    { image_keeps, BoardKeeps.of_rest (I := State.imageSound) (fun _ _ h => h),
      ClockKeeps.of_rest (I := State.imageSound) (fun _ _ h => h) with
      quiet := fun {s t} h e _ => by
        simp only [panelSeen, mapSeen, Prod.mk.injEq] at e
        exact imageSound_of_same h e.2.1.1 e.2.1.2.1 (by rw [e.2.1.2.2.1]) (by rw [e.1]) (by rw [e.1]) }
  { keeps with
    setCfg := fun _ h => h
    anyTimers := fun _ h => h
    held := fun _ h => keeps.takeHeldFirst (fun _ h => h) h
    cleared := fun _ _ _ => imageSound_of_blank (wt := 16) (ht := 9) rfl rfl rfl rfl
    sized := fun wt ht _ _ => imageSound_of_blank (wt := wt) (ht := ht) rfl rfl rfl rfl }

/-- Settles O8: a signature is written together with its pixels, and nothing else touches either. -/
theorem stepKeepsWantedSignaturesOfThePixels : Obligations.StepKeepsWantedSignaturesOfThePixels :=
  fun _ _ sound stepped => image_kept.step sound stepped

end Sys2Proof.PanelInvariants
end

section
/-! PROOFS. The Panel Drive's events (10 R158 to R173): the rise expiry, the linger expiry, the frame end after a brownout, the supply
level by the booster state, and the identity exchange of a full clean. -/

namespace Sys2Proof.PanelEvents

open Sys2Proof.Machine Sys2Proof.CutFrame

/-! ### A HOLD class keeps every attempt from a grant (R150, R173) -/

/-- Two sets of classes that hold the same class meet (R174). -/
theorem and_ne_zero_of_bit {x y : BitVec 16} {c : FaultClass} (hx : x &&& c.bit ≠ 0) (hy : y &&& c.bit ≠ 0) : x &&& y ≠ 0 := by
  have bit : c.bit = BitVec.twoPow 16 c.index := by cases c <;> rfl
  rw [bit, BitVec.and_twoPow] at hx hy
  have at_x : x.getLsbD c.index = true := by by_contra h; exact hx (if_neg h)
  have at_y : y.getLsbD c.index = true := by by_contra h; exact hy (if_neg h)
  intro e
  have both := congrArg (BitVec.getLsbD · c.index) e
  simp [at_x, at_y] at both

/-- A latched class whose disposition is HOLD holds the refresh (R173). -/
theorem holdLatched_of_latched {s : State} {c : FaultClass} (latched : s.faults.isLatched c = true)
    (holds : s.classHolds c = true) : s.holdLatched = true := by
  simp only [FaultUnit.isLatched, State.classHolds, State.holdLatched, bne_iff_ne] at *
  exact and_ne_zero_of_bit latched holds

/-- While a HOLD class is latched an attempt grants nothing (R150). -/
theorem attempt_of_holdLatched {s : State} (h : s.holdLatched = true) : s.attempt = s := by
  simp [State.attempt, State.chooseJob, h]

/-- A fault of a class that holds keeps the attempt behind it from a grant (R150, R173). -/
theorem attempt_raise_of_holds {s : State} {f : FaultCode} (holds : s.classHolds f.cls = true) :
    (s.raise f).attempt = s.raise f :=
  attempt_of_holdLatched (holdLatched_of_latched (StartUpEnd.raise_latches _ f _) holds)

/-! ### A job changed by number (R118) -/

/-- The job of a number after a change of it that keeps its number. -/
theorem job_changeJob (tm : TileMap) (n : Nat) {f : Job → Job} (num : ∀ j, (f j).num = j.num) :
    (tm.changeJob n f).job n = (tm.job n).map f := by
  simp only [TileMap.job, TileMap.changeJob]
  induction tm.jobs with
  | nil => rfl
  | cons j jobs ih =>
    by_cases h : j.num = n
    · simp [h, num]
    · simp [h, ih]

/-- The snapshot holds the wanted signatures of the span's tiles, place by place (R130). -/
theorem snapshotOf_eq (j : Job) (wt start : Nat) (tiles : List Tile) :
    snapshotOf j wt start tiles =
      ((List.range tiles.length).filter fun i => j.covers wt (start + i)).map
        fun i => (tiles.getD i (.unknown none)).wanted := by
  induction tiles generalizing start with
  | nil => rfl
  | cons t ts ih =>
    have tail : (((List.range ts.length).map Nat.succ).filter fun i => j.covers wt (start + i)).map
        (fun i => ((t :: ts).getD i (.unknown none)).wanted) = snapshotOf j wt (start + 1) ts := by
      rw [ih, List.filter_map, List.map_map]
      simp only [Function.comp_def, Nat.succ_eq_add_one, List.getD_cons_succ, Nat.add_assoc, Nat.add_comm 1]
    rw [snapshotOf, List.length_cons, List.range_succ_eq_map, List.filter_cons, ← tail]
    by_cases h : j.covers wt start = true
    · rw [if_pos h, if_pos (by exact h), List.map_cons]
      rfl
    · rw [if_neg h, if_neg (by exact h)]

/-! ### The rise expiry (R158) -/

section Rise

variable {s : State}

/-- The rise timer's expiry in RISING, before BGOOD is read (R158). -/
def riseExpired (s : State) : State := { s with timers := { s.timers with rise := s.timers.rise.expire } }

theorem exec_riseExpiry_of_rising (running : s.timers.rise.running = true) (rising : s.drive.booster = .rising)
    (bgood : Bool) :
    exec (.riseExpiry bgood) s = .next
      (if bgood then State.startDrive ((riseExpired s).setDrive s.drive.raised)
      else if s.drive.retriesUsed < s.cfg.param 26 then (riseExpired s).pauseRise
      else (riseExpired s).failRise) := by
  simp only [exec, execRiseExpiry, running, rising, riseExpired, BEq.rfl, Bool.and_true, if_true]

/-- A failed rise whose class holds ends with the job returned and BOOSTER/301, and no grant follows (R150, R158). -/
theorem failRise_of_holds {n : Nat} (granted : s.drive.granted = some n) (holds : s.classHolds .booster = true) :
    s.failRise = State.raise { s with
      drive := { s.drive with booster := .off, ben := false, granted := none }
      tiles := s.tiles.returnJob s.notices.jobClass n } .booster301 := by
  have returned : (s.setDrive s.drive.lowered).returnGranted = { s with
      drive := { s.drive with booster := .off, ben := false, granted := none }
      tiles := s.tiles.returnJob s.notices.jobClass n } := by
    simp only [State.returnGranted, State.setDrive, Drive.lowered, granted, State.setTiles]
  rw [State.failRise, returned]
  exact attempt_raise_of_holds (f := .booster301) (by exact holds)

end Rise

/-- Settles O25: BGOOD high starts the drive of the granted job, low pauses or fails the rise. -/
theorem riseExpiryActsOnBoosterGood : Obligations.RiseExpiryActsOnBoosterGood := by
  refine ⟨fun s n j running rising granted found => ⟨?good, fun more => ?pause, fun none_left holds => ?fail⟩,
    fun j wt tiles => by simpa using snapshotOf_eq j wt 0 tiles⟩
  case good =>
    have start := startDrive_eq (s := (riseExpired s).setDrive s.drive.raised) granted found
    have work : PanelWork s ((riseExpired s).setDrive s.drive.raised) := by constructor <;> rfl
    refine ⟨_, exec_riseExpiry_of_rising running rising true, work.trans (startDrive_panelWork _), ?_⟩
    simp only [if_true, start]
    refine ⟨trivial, rfl, granted, trivial, ?_, rfl, rfl⟩
    simp only [TileMap.startJob]
    rw [job_changeJob _ _ (by exact fun _ => rfl)]
    simp only [State.setDrive, riseExpired, found, Option.map_some]
  case pause =>
    rw [exec_riseExpiry_of_rising running rising, if_neg Bool.false_ne_true, if_pos more]
    rfl
  case fail =>
    rw [exec_riseExpiry_of_rising running rising, if_neg Bool.false_ne_true, if_neg (Nat.not_lt.mpr none_left),
      failRise_of_holds (by exact granted) (by exact holds)]
    refine ⟨_, rfl, ?_, rfl, rfl, rfl⟩
    constructor <;> first | rfl | exact returnJob_elapsed ..

/-! ### The linger expiry (R160) -/

theorem exec_lingerExpiry_of_due {s : State} (due : s.timers.linger.due = true) :
    exec .lingerExpiry s = .next (State.settle
      (State.driveEvent { s with timers := { s.timers with linger := s.timers.linger.expire } } .lingerExpiry)) := by
  simp only [exec, execLingerExpiry, due, if_true]

/-- An event during an exchange waits for its end (R170). -/
theorem driveEvent_of_exchange {s : State} (h : s.drive.exchange ≠ none) (e : DriveEvent) :
    s.driveEvent e = s.setDrive { s.drive with held := s.drive.held ++ [e] } :=
  if_pos (Option.isSome_iff_ne_none.mpr h)

/-- With no exchange in progress an event is taken at once (R170). -/
theorem driveEvent_of_no_exchange {s : State} (h : s.drive.exchange = none) (e : DriveEvent) :
    s.driveEvent e = s.takeDriveEvent e := by
  simp only [State.driveEvent, h, Option.isSome_none, Bool.false_eq_true, if_false]

/-- After the linger expiry a grant that finds the supply ABOVE rises (R157, R160). -/
theorem lingerDown_meetOff {s : State} (above : s.drive.supplyAbove = true) :
    s.lingerDown.meetOff = s.lingerDown.startRise := if_pos above

/-- Settles O27: the expiry by the exchange and the booster state, and the two orders in which it meets a grant. -/
theorem lingerExpiryLowersTheBooster : Obligations.LingerExpiryLowersTheBooster := by
  refine ⟨fun s running zero ready waiting => ?due, fun s notDue => ?notDue, fun s rest running zero ready above => ?meets⟩
  case due =>
    have due : s.timers.linger.due = true := (Timer.due_iff _).mpr ⟨running, zero⟩
    refine ⟨fun free => ?_, fun busy => ?_⟩
    · have taken : State.driveEvent { s with timers := { s.timers with linger := s.timers.linger.expire } } .lingerExpiry =
          { s with
            drive := { s.drive with booster := .off, ben := false }
            timers := { s.timers with linger := s.timers.linger.expire } } :=
        (driveEvent_of_no_exchange (by exact free) _).trans (if_pos ready)
      rw [exec_lingerExpiry_of_due due, taken, settle_of_not_waiting (by exact waiting)]
    · rw [exec_lingerExpiry_of_due due, driveEvent_of_exchange (by exact busy), settle_of_not_waiting (by exact waiting)]
      rfl
  case notDue =>
    have notDue : ¬s.timers.linger.due = true := fun due => by
      obtain ⟨running, zero⟩ := (Timer.due_iff _).mp due
      simp [running, zero] at notDue
    simp only [exec, execLingerExpiry, if_neg notDue]
  case meets =>
    have due : s.timers.linger.due = true := (Timer.due_iff _).mpr ⟨running, zero⟩
    refine ⟨fun first => ?_, fun second => ?_⟩
    · simp only [State.meetBooster, ready, due, State.choose, first, if_true]
      exact lingerDown_meetOff above
    · simp only [State.meetBooster, ready, due, State.choose, second, if_true, Bool.false_eq_true, if_false, State.meetReady]

/-! ### The frame end after a brownout (R132, R166) -/

/-- What an abort makes of a tile's shown signature, ghost count and clear-due mark (R132). -/
theorem abortJob_tile {tm : TileMap} {n : Nat} {j : Job} (hj : tm.job n = some j) (band : JobClass) (d : Bool)
    {i : Nat} {a b : Tile} (ha : tm.tiles[i]? = some a) (hb : (tm.abortJob band n d).tiles[i]? = some b) :
    b.ghost = a.ghost ∧ (j.covers tm.wt i = false → b.shown = a.shown) ∧
      (j.covers tm.wt i = true → b.shown = none ∧ b.clearDue = true) := by
  simp only [TileMap.abortJob, hj] at hb
  have tile := abortTiles_tile j tm.wt (tm.queuedClean.map (·.num)) tm.tiles i
  rw [ha, Option.map_some] at tile
  obtain ⟨shown, ghost, clearDue⟩ := (afterJob_sameGlass _ band j d).tile tile hb
  rw [shown, ghost, clearDue]
  cases j.covers tm.wt i <;> simp

theorem abortJob_geometry (tm : TileMap) (band : JobClass) (n : Nat) (d : Bool) :
    (tm.abortJob band n d).wt = tm.wt ∧ (tm.abortJob band n d).ht = tm.ht ∧
      (tm.abortJob band n d).tiles.length = tm.tiles.length := by
  unfold TileMap.abortJob
  split
  · exact ⟨rfl, rfl, rfl⟩
  · rename_i j _
    have glass := afterJob_sameGlass { tm with
      jobs := tm.jobs.filter fun k => k.num != n
      tiles := abortTiles j tm.wt (tm.queuedClean.map (·.num)) tm.tiles } band j d
    exact ⟨glass.wt, glass.ht, glass.length.trans (mapTiles_length ..)⟩

/-- An attempt in OFF without supply leaves the booster in OFF with BEN as it was: the job granted waits for supply (R157). -/
theorem attempt_off_below {s : State} (off : s.drive.booster = .off) (below : s.drive.supplyAbove = false)
    (size : s.sizeDiffers = false) : s.attempt.drive.booster = .off ∧ s.attempt.drive.ben = s.drive.ben := by
  unfold State.attempt
  split
  · exact ⟨off, rfl⟩
  · unfold State.grant
    dsimp only
    split
    · rw [applySize_same (by exact size)]
      exact ⟨off, rfl⟩
    · simp only [State.meetBooster, off, State.meetOff, below, Bool.false_eq_true, if_false, and_self]

section Abort

variable {s : State}

/-- The state once the frame after a brownout has ended and job `n` is aborted, before the attempt that follows (R132, R166). -/
def aborted (s : State) (n : Nat) : State :=
  { s with
    drive := { s.drive with
      framesDriven := s.drive.framesDriven + 1, booster := .off, ben := false, granted := none, brownedOut := false }
    tiles := s.tiles.abortJob s.notices.jobClass n s.sizeDiffers }

theorem aborted_panelWork (s : State) (n : Nat) : PanelWork s (aborted s n) := by
  constructor <;> first | rfl | exact abortJob_elapsed ..

theorem aborted_sizeDiffers (s : State) (n : Nat) : (aborted s n).sizeDiffers = s.sizeDiffers := by
  obtain ⟨wt, ht, -⟩ := abortJob_geometry s.tiles s.notices.jobClass n s.sizeDiffers
  simp only [State.sizeDiffers, aborted] at wt ht ⊢
  rw [wt, ht]

/-- The frame end of a job's drive after a brownout: the abort, its attempt, and DRIVE/311 (R166). -/
theorem exec_frameEnd_of_brownout {n : Nat} (driving : s.drive.booster = .driving) (whole : s.drive.cutFrame = false)
    (brownout : s.drive.brownedOut = true) (exchange : s.drive.exchange = none) (held : s.drive.held = [])
    (waiting : s.attemptWaiting = false) (granted : s.drive.granted = some n) :
    exec .frameEnd s = .next ((aborted s n).attempt.raise .drive311) := by
  have taken : s.takeFrameEnd = (s.setDrive { s.drive with framesDriven := s.drive.framesDriven + 1 }).abortDrive := by
    simp [State.takeFrameEnd, State.setDrive, driving, whole, brownout]
  have abort : (s.setDrive { s.drive with framesDriven := s.drive.framesDriven + 1 }).abortDrive =
      (aborted s n).attempt.raise .drive311 := by
    simp only [State.abortDrive, State.setDrive, granted]
    rfl
  have ends : exec .frameEnd s = .next (State.settle ((aborted s n).attempt.raise .drive311)) := by
    rw [← abort, ← taken]
    simp [exec, execFrameEnd, State.driveEvent, State.takeDriveEvent, driving, exchange, held]
  have settled : ((aborted s n).attempt.raise .drive311).attemptWaiting = false := by
    rw [State.raise_attemptWaiting, attempt_attemptWaiting]
    exact waiting
  rw [ends, settle_of_not_waiting settled]

end Abort

/-- Settles O29: the abort tile by tile, an attempt that cannot raise the booster without supply, and DRIVE/311. -/
theorem brownoutAbortsAtTheFrameEnd : Obligations.BrownoutAbortsAtTheFrameEnd := by
  intro s n j driving whole brownout below exchange held waiting granted hj size
  have same : (aborted s n).sizeDiffers = false := (aborted_sizeDiffers s n).trans size
  have work := attempt_grantWork same
  obtain ⟨off, ben⟩ := attempt_off_below (s := aborted s n) rfl below same
  refine ⟨_, exec_frameEnd_of_brownout driving whole brownout exchange held waiting granted,
    (aborted_panelWork s n).trans (work.toPanelWork.trans (raise_panelWork _ _)), off, ben, ?_, ?_, fun i a b ha hb => ?_⟩
  · rw [State.raise_faults, work.faults, work.clock]
    rfl
  · rw [State.raise_tiles, work.tiles]
    exact (abortJob_geometry ..).2.2
  · rw [State.raise_tiles, work.tiles] at hb
    exact abortJob_tile hj _ _ ha hb

/-! ### The supply level (R161, R166) -/

section Supply

variable {s : State}

/-- With no event waiting the level is that of the comparator (R161). -/
theorem above_of_held_nil (held : s.drive.held = []) : s.above = s.drive.supplyAbove := by rw [State.above, held]; rfl

theorem exec_brownout_of_above (powered : s.powered = true) (above : s.above = true) :
    exec .brownout s = .next (s.driveEvent .brownout).settle := by
  simp [exec, execBrownout, State.moveLevel, powered, above]

theorem exec_supplyLevelRise_of_below (powered : s.powered = true) (below : s.above = false) :
    exec .supplyLevelRise s = .next (s.driveEvent .supplyRise).settle := by
  simp [exec, execSupplyLevelRise, State.moveLevel, powered, below]

/-- The state that a brownout in RISING leaves: the rise is abandoned and the job returned (R133, R161). -/
def abandoned (s : State) : State :=
  { s with
    drive := { s.drive with supplyAbove := false, booster := .off, ben := false, granted := none }
    timers := { s.timers with rise := s.timers.rise.stop, retry := s.timers.retry.stop }
    tiles := (match s.drive.granted with
      | none => s.tiles
      | some n => s.tiles.returnJob s.notices.jobClass n) }

theorem takeBrownout_of_rising (rising : s.drive.booster = .rising) : s.takeBrownout = (abandoned s).attempt := by
  rw [State.takeBrownout, rising]
  refine congrArg State.attempt ?_
  cases granted : s.drive.granted <;>
    simp only [State.returnGranted, State.setDrive, State.setTiles, Drive.lowered, Timers.stopRise, abandoned, granted]

/-- A level that the comparator already shows moves nothing, and a change of it is an event at the Panel Drive (R161). -/
theorem moveLevel_false (s : State) : s.moveLevel false = if s.above then s.driveEvent .brownout else s := by
  cases h : s.above <;> simp [State.moveLevel, h]

theorem moveLevel_true (s : State) : s.moveLevel true = if s.above then s else s.driveEvent .supplyRise := by
  cases h : s.above <;> simp [State.moveLevel, h]

end Supply

/-- The return of the job `n`: a clean that is queued absorbs it, else it is QUEUED again and its row is formed (R133). -/
theorem returnJob_eq {tm : TileMap} {n : Nat} {j : Job} (hj : tm.job n = some j) (band : JobClass) :
    (∀ k, tm.queuedClean = some k → tm.returnJob band n = { tm with
      jobs := tm.jobs.filter fun i => i.num ≠ n
      tiles := tm.tiles.map fun x => if x.job = some n then { x with job := some k.num } else x }) ∧
    (tm.queuedClean = none →
      tm.returnJob band n =
        (TileMap.formRow { tm with jobs := tm.jobs.map fun i => if i.num = n then { i with state := .queued } else i }
          band j.row).1) := by
  refine ⟨fun k hk => ?_, fun hk => ?_⟩
  · simp [TileMap.returnJob, hj, hk, bne, Bool.beq_eq_decide_eq]
  · simp only [TileMap.returnJob, hj, hk, TileMap.changeJob]

/-- Settles O31: a brownout by the booster state, a rise of the level, both during an exchange, and VSTORE against P20. -/
theorem supplyLevelActsByBoosterState : Obligations.SupplyLevelActsByBoosterState := by
  refine ⟨fun s powered above exchange held waiting => ?brownout, fun tm band n j hj => returnJob_eq hj band,
    fun s powered below exchange held waiting => ?rise, fun s waiting => ?exchange, fun s mv => ?voltage,
    fun s old => ?threshold⟩
  case brownout =>
    have taken : exec .brownout s = .next s.takeBrownout.settle := by
      rw [exec_brownout_of_above powered ((above_of_held_nil held).trans above), driveEvent_of_no_exchange exchange]
      rfl
    refine ⟨fun off => ?_, fun ready => ?_, fun driving => ?_, fun rising => ?_⟩
    · rw [taken, State.takeBrownout, off, settle_of_not_waiting (by exact waiting)]
      rfl
    · rw [taken, State.takeBrownout, ready, settle_of_not_waiting (by exact waiting)]
      rfl
    · rw [taken, State.takeBrownout, driving, settle_of_not_waiting (by exact waiting)]
      rfl
    · have run : exec .brownout s = .next (abandoned s).attempt := by
        rw [taken, takeBrownout_of_rising rising,
          settle_of_not_waiting ((attempt_attemptWaiting _).trans (by exact waiting))]
      exact ⟨run, fun hold => run.trans (congrArg _ (attempt_of_holdLatched (by exact hold)))⟩
  case rise =>
    have taken : exec .supplyLevelRise s = .next s.takeSupplyRise.settle := by
      rw [exec_supplyLevelRise_of_below powered ((above_of_held_nil held).trans below), driveEvent_of_no_exchange exchange]
      rfl
    refine ⟨fun ⟨off, granted⟩ => ?_, fun other => ?_⟩
    · rw [taken, State.takeSupplyRise, if_pos ⟨off, Option.isSome_iff_ne_none.mpr granted⟩,
        settle_of_not_waiting (by exact waiting)]
      rfl
    · rw [taken, State.takeSupplyRise, if_neg (by rwa [Option.isSome_iff_ne_none]), settle_of_not_waiting (by exact waiting)]
      rfl
  case exchange =>
    refine ⟨fun powered above busy => ?_, fun powered below busy => ?_, fun idle => ?_, fun idle => ?_⟩
    · rw [exec_brownout_of_above powered above, driveEvent_of_exchange busy, settle_of_not_waiting (by exact waiting)]
      rfl
    · rw [exec_supplyLevelRise_of_below powered below, driveEvent_of_exchange busy,
        settle_of_not_waiting (by exact waiting)]
      rfl
    · have still : ¬(s.powered && s.above) = true := by rcases idle with h | h <;> simp [h]
      simp only [exec, execBrownout, if_neg still]
    · have still : ¬(s.powered && !s.above) = true := by rcases idle with h | h <;> simp [h]
      simp only [exec, execSupplyLevelRise, if_neg still]
  case voltage =>
    refine ⟨fun same => if_pos same, fun lower => ?_, fun higher => ?_⟩
    · rw [State.seeVoltage, if_neg (by omega), decide_eq_false (by omega), moveLevel_false]
    · rw [State.seeVoltage, if_neg (by omega), decide_eq_true (by omega), moveLevel_true]
  case threshold =>
    refine ⟨if s.above then max (Config.storageVoltage s.freeCount) (old + 1)
      else min (Config.storageVoltage s.freeCount) old, rfl, fun above => ?_, fun below => ?_⟩
    · rw [if_pos above]
      omega
    · rw [if_neg (by simp [below])]
      omega

/-! ### The identity exchange of a full clean (R170, R171) -/

theorem returnGranted_attemptWaiting (s : State) : s.returnGranted.attemptWaiting = s.attemptWaiting := by
  unfold State.returnGranted
  split <;> rfl

/-- The decision on a clean's grant leaves the events that wait, and takes no attempt that waits (R171). -/
theorem decideClean_idle (s : State) (fault : Option FaultCode) :
    (s.decideClean fault).drive.held = s.drive.held ∧ (s.decideClean fault).attemptWaiting = s.attemptWaiting := by
  unfold State.decideClean
  split
  · exact ⟨((returnGranted_panelWork s).trans (attempt_panelWork _)).held,
      (attempt_attemptWaiting _).trans (returnGranted_attemptWaiting s)⟩
  · split
    · exact ⟨(meetBooster_panelWork s).held, meetBooster_attemptWaiting s⟩
    · exact ⟨rfl, rfl⟩

/-- No event waiting, none is released (R170). -/
theorem releaseHeld_of_nil {s : State} (held : s.drive.held = []) : s.releaseHeld = s := by
  rw [State.releaseHeld, held, State.driveEvents, State.setDrive, ← held]

section Clean

variable {s : State}

theorem exec_identityExchange_of_clean (answer : Option (Byte × Byte)) (exchange : s.drive.exchange = some .clean) :
    exec (.identityExchange answer) s = .next (State.settle (State.releaseHeld
      ((StartUpEnd.exchangeOver s).endCleanExchange (s.tiles.identityFault answer)))) := by
  simp only [exec, execIdentityExchange, exchange]
  rfl

/-- The state in which a clean's grant is decided: its exchange over, and its fault raised (R171). -/
def answered (s : State) (fault : Option FaultCode) : State := (StartUpEnd.exchangeOver s).raiseIdentity fault

theorem answered_eq (s : State) (fault : Option FaultCode) :
    answered s fault = { s with
      drive := { s.drive with exchange := none }
      faults := match fault with
        | none => s.faults
        | some f => s.faults.raise f s.clock.stamp } := by
  cases fault <;> rfl

/-- With no event waiting the exchange's end is the decision on the grant (R171). -/
theorem exec_identityExchange_decides (answer : Option (Byte × Byte)) (exchange : s.drive.exchange = some .clean)
    (held : s.drive.held = []) (waiting : s.attemptWaiting = false) :
    exec (.identityExchange answer) s =
      .next ((answered s (s.tiles.identityFault answer)).decideClean (s.tiles.identityFault answer)) := by
  generalize fault : s.tiles.identityFault answer = f
  have eq := answered_eq s f
  have heldNil : (answered s f).drive.held = [] := by rw [eq]; exact held
  have still : (answered s f).attemptWaiting = false := by rw [eq]; exact waiting
  obtain ⟨held', waiting'⟩ := decideClean_idle (answered s f) f
  have ended : (StartUpEnd.exchangeOver s).endCleanExchange f = (answered s f).decideClean f :=
    if_pos (.inl heldNil)
  rw [exec_identityExchange_of_clean answer exchange, fault, ended, releaseHeld_of_nil (held'.trans heldNil),
    settle_of_not_waiting (waiting'.trans still)]

/-- PANEL is at HOLD exactly when bit 1 of P39 is set (R173). -/
theorem classHolds_panel (s : State) : s.classHolds .panel = (s.cfg.param 39).testBit 1 := by
  have bits : holdSet s.cfg &&& FaultClass.panel.bit = BitVec.ofNat 16 (s.cfg.param 39) &&& BitVec.twoPow 16 1 := by
    rw [holdSet, BitVec.and_assoc]
    rfl
  rw [State.classHolds, bits, BitVec.and_twoPow, BitVec.getLsbD_ofNat]
  cases (s.cfg.param 39).testBit 1 <;> rfl

/-- The clean goes ahead after a matching answer, and after a fault whose class is at CONTINUE (R171). -/
theorem decideClean_goes {s : State} {fault : Option FaultCode} (granted : s.drive.granted ≠ none)
    (goes : (fault.isSome && s.classHolds .panel) = false) : s.decideClean fault = s.meetBooster := by
  rw [State.decideClean, goes, if_neg Bool.false_ne_true, if_pos (Option.isSome_iff_ne_none.mpr granted)]

/-- A fault whose class is at HOLD returns the clean, and no grant follows (R150, R171). -/
theorem decideClean_returns {s : State} {f : FaultCode} {n : Nat} (granted : s.drive.granted = some n)
    (holds : s.classHolds .panel = true) (latched : s.faults.isLatched .panel = true) :
    s.decideClean (some f) = { s with
      drive := { s.drive with granted := none }
      tiles := s.tiles.returnJob s.notices.jobClass n } := by
  have returned : s.returnGranted = { s with
      drive := { s.drive with granted := none }
      tiles := s.tiles.returnJob s.notices.jobClass n } := by
    simp only [State.returnGranted, granted]
    rfl
  rw [State.decideClean, holds, if_pos (by rfl), returned]
  exact attempt_of_holdLatched (holdLatched_of_latched (by exact latched) (by exact holds))

/-- A matching answer has no fault, and any other the fault of R170. -/
theorem identityFault_of_fits {tm : TileMap} {answer : Option (Byte × Byte)}
    (fits : ∃ w h : Byte, answer = some (w, h) ∧ w.toNat = tm.wt ∧ h.toNat = tm.ht) : tm.identityFault answer = none := by
  obtain ⟨w, h, rfl, both⟩ := fits
  exact if_pos both

theorem identityFault_of_not_fits {tm : TileMap} {answer : Option (Byte × Byte)}
    (misfit : ¬∃ w h : Byte, answer = some (w, h) ∧ w.toNat = tm.wt ∧ h.toNat = tm.ht) :
    tm.identityFault answer = some (if answer = none then .panel202 else .panel201) := by
  match answer with
  | none => rfl
  | some (w, h) => exact if_neg fun both => misfit ⟨w, h, rfl, both⟩

/-- The clean's grant meets the booster once its exchange has ended, with the faults `faults` (R157, R171). -/
theorem exec_identityExchange_goes {n : Nat} {answer : Option (Byte × Byte)} {faults : FaultUnit}
    (exchange : s.drive.exchange = some .clean) (held : s.drive.held = []) (waiting : s.attemptWaiting = false)
    (granted : s.drive.granted = some n)
    (outcome : (∃ w h : Byte, answer = some (w, h) ∧ w.toNat = s.tiles.wt ∧ h.toNat = s.tiles.ht) ∧ faults = s.faults ∨
      (¬∃ w h : Byte, answer = some (w, h) ∧ w.toNat = s.tiles.wt ∧ h.toNat = s.tiles.ht) ∧
        ¬(s.cfg.param 39).testBit 1 = true ∧
        faults = s.faults.raise (if answer = none then .panel202 else .panel201) s.clock.stamp) :
    exec (.identityExchange answer) s =
      .next (State.meetBooster { s with drive := { s.drive with exchange := none }, faults := faults }) := by
  rw [exec_identityExchange_decides answer exchange held waiting]
  have held_granted (f : Option FaultCode) : (answered s f).drive.granted ≠ none := by
    rw [answered_eq]
    exact ne_of_eq_of_ne granted (Option.some_ne_none n)
  rcases outcome with ⟨fits, rfl⟩ | ⟨misfit, continues, rfl⟩
  · rw [identityFault_of_fits fits, decideClean_goes (held_granted _) rfl, answered_eq]
  · have goes (f : FaultCode) : ((some f).isSome && (answered s (some f)).classHolds .panel) = false := by
      rw [classHolds_panel, answered_eq]
      simpa using continues
    rw [identityFault_of_not_fits misfit, decideClean_goes (held_granted _) (goes _), answered_eq]

end Clean

/-- A granted job that meets OFF rises with the supply ABOVE, and waits for it otherwise (R157). -/
theorem meetBooster_off {s : State} (off : s.drive.booster = .off) :
    s.meetBooster = if s.drive.supplyAbove then s.startRise else s := by
  rw [State.meetBooster, off]
  rfl

/-- One granted during a frame waits for the frame's end (R157). -/
theorem meetBooster_driving {s : State} (driving : s.drive.booster = .driving) : s.meetBooster = s := by
  rw [State.meetBooster, driving]

/-- A linger expiry that waited lowers the booster before the clean meets it, where the schedule takes it first (R160, R170). -/
theorem endCleanExchange_of_linger {s : State} {n : Nat} {rest : List Bool} (exchange : s.drive.exchange = none)
    (held : s.drive.held = [.lingerExpiry]) (granted : s.drive.granted = some n) (ready : s.drive.booster = .ready)
    (above : s.drive.supplyAbove = true) (schedule : s.schedule = true :: rest) :
    s.endCleanExchange none = State.startRise { s with
      schedule := rest
      drive := { s.drive with held := [], ben := false, booster := .off } } := by
  have first : State.takeHeldFirst { s with schedule := rest } = { s with
      schedule := rest
      drive := { s.drive with held := [], ben := false, booster := .off } } := by
    simp [State.takeHeldFirst, State.setDrive, held, State.driveEvents, State.driveEvent, exchange, State.takeDriveEvent,
      State.takeLingerExpiry, ready, Drive.lowered, granted]
  have waits : ¬(s.drive.held = [] ∨ s.drive.granted = none) := by simp [held, granted]
  have choice : s.choose = (true, { s with schedule := rest }) := by rw [State.choose, schedule]
  rw [State.endCleanExchange, State.raiseIdentity, if_neg waits, choice, if_pos rfl, first,
    decideClean_goes (by exact ne_of_eq_of_ne granted (Option.some_ne_none n)) rfl, meetBooster_off rfl,
    if_pos (by exact above)]

/-- Settles O32: the decision on the clean's grant by the answer and PANEL's disposition, and the linger expiry that waited. -/
theorem identityDecidesTheCleansGrant : Obligations.IdentityDecidesTheCleansGrant := by
  refine ⟨fun s n answer faults exchange held granted waiting => ?decides, ?linger⟩
  case decides =>
    dsimp only
    refine ⟨fun outcome => ?goes, fun misfit holds => ?returned⟩
    case goes =>
      have run := exec_identityExchange_goes exchange held waiting granted outcome
      refine ⟨fun off above => ?_, fun off below => ?_, fun j found ready notDue => ?_, fun driving => ?_⟩
      · rw [run, meetBooster_off (by exact off), if_pos (by exact above)]
        rfl
      · rw [run, meetBooster_off (by exact off), if_neg (by simp [below])]
      · have idle : s.timers.linger.due = false := by
          rw [← Bool.not_eq_true, Timer.due_iff]
          rintro ⟨running, zero⟩
          simp [running, zero] at notDue
        rw [run, meetBooster_ready (by exact ready) (by exact idle), State.meetReady,
          startDrive_eq (by exact granted) (by exact found)]
        rfl
      · rw [run, meetBooster_driving (by exact driving)]
    case returned =>
      have fault := identityFault_of_not_fits misfit
      have cls : FaultCode.cls (if answer = none then .panel202 else .panel201) = .panel := by split <;> rfl
      generalize (if answer = none then FaultCode.panel202 else .panel201) = f at fault cls ⊢
      have run := exec_identityExchange_decides answer exchange held waiting
      rw [fault, answered_eq, decideClean_returns (by exact granted) ((classHolds_panel _).trans (by exact holds))
        (by rw [← cls]; exact StartUpEnd.raise_latches ..)] at run
      refine ⟨_, run, ?_, rfl, rfl, rfl⟩
      constructor <;> first | rfl | exact returnJob_elapsed ..
  case linger =>
    intro s n w h rest exchange held granted waiting ready above hw hh schedule
    have fits : s.tiles.identityFault (some (w, h)) = none := if_pos ⟨hw, hh⟩
    rw [exec_identityExchange_of_clean _ exchange, fits,
      endCleanExchange_of_linger (s := StartUpEnd.exchangeOver s) rfl held granted ready above schedule, releaseHeld_of_nil rfl,
      settle_of_not_waiting (by exact waiting)]
    rfl

end Sys2Proof.PanelEvents
end

section
/-! PROOFS. The grant (09 R140 to R142, R149 to R152; 08 R129): the arbiter's order and its choice, what a grant does in each
booster state, and the size that a full clean applies. -/

namespace Sys2Proof.Grants

open Sys2Proof.Machine Sys2Proof.PanelEvents

/-! ### The arbiter's order (R151) -/

theorem goesBefore_iff (elapsed : Nat) (a b : Job) : a.goesBefore elapsed b = true ↔
    a.priority elapsed < b.priority elapsed ∨ (a.priority elapsed = b.priority elapsed ∧
      (a.enqueue < b.enqueue ∨ (a.enqueue = b.enqueue ∧ (a.row < b.row ∨ (a.row = b.row ∧ a.first < b.first))))) := by
  simp [Job.goesBefore]

/-- No job goes before one that it does not go after: the order is total but for jobs of one place. -/
theorem goesBefore_false_trans {elapsed : Nat} {a b c : Job} (ab : a.goesBefore elapsed b = false)
    (bc : b.goesBefore elapsed c = false) : a.goesBefore elapsed c = false := by
  rw [← Bool.not_eq_true, goesBefore_iff] at *
  omega

theorem goesBefore_asymm {elapsed : Nat} {a b : Job} (ab : a.goesBefore elapsed b = true) :
    b.goesBefore elapsed a = false := by
  rw [← Bool.not_eq_true]
  rw [goesBefore_iff] at *
  omega

theorem goesBefore_irrefl (elapsed : Nat) (a : Job) : a.goesBefore elapsed a = false := by
  rw [← Bool.not_eq_true, goesBefore_iff]
  omega

theorem pickJob_eq_none {elapsed : Nat} {l : List Job} : pickJob elapsed l = none ↔ l = [] := by
  cases l with
  | nil => exact iff_of_true rfl rfl
  | cons j js =>
    unfold pickJob
    split
    · simp
    · split <;> simp

/-- None of the list goes before the job picked (R151). -/
theorem pickJob_first {elapsed : Nat} {l : List Job} {j : Job} (h : pickJob elapsed l = some j) :
    ∀ k ∈ l, k.goesBefore elapsed j = false := by
  induction l generalizing j with
  | nil => cases h
  | cons i js ih =>
    unfold pickJob at h
    split at h
    · next empty =>
      cases h
      rw [pickJob_eq_none.mp empty]
      simpa using goesBefore_irrefl elapsed i
    · next m picked =>
      split at h
      · next before =>
        cases h
        exact List.forall_mem_cons.mpr ⟨goesBefore_asymm before, ih picked⟩
      · next after =>
        cases h
        exact List.forall_mem_cons.mpr ⟨goesBefore_irrefl elapsed i,
          fun k hk => goesBefore_false_trans (ih picked k hk) (Bool.eq_false_iff.mpr after)⟩

/-- A job's effective priority in whole numbers, for an enqueue time that has come (R151). -/
theorem priority_eq {elapsed : Nat} {j : Job} (h : j.enqueue ≤ elapsed) :
    j.priority elapsed = ((match j.cls with | .noticeUrgent => 1 | .row => 4 | .notice => 6 | .clock => 8 | .clean => 10) -
      (elapsed - j.enqueue) / 30 : Nat) := by
  cases hc : j.cls <;> simp only [Job.priority, JobClass.base, hc] <;> omega

/-! ### Bands, costs and reserves (R140 to R142) -/

/-- Each whole degree from -10 to 55 lies in the band whose ends enclose it (R140). -/
theorem bandOf_of_bounds : ∀ k < 66, ∀ band < 8,
    ([-10, 0, 5, 10, 15, 25, 35, 45] : List Int).getD band 100 ≤ ((k : Nat) : Int) - 10 →
    ((k : Nat) : Int) - 10 ≤ ([-1, 4, 9, 14, 24, 34, 44, 55] : List Int).getD band 0 →
    bandOf (((k : Nat) : Int) - 10) = some band := by
  decide

/-- The bands and their ends (R140). -/
theorem bandOf_iff (c : Int) (band : Nat) : bandOf c = some band ↔
    ([-10, 0, 5, 10, 15, 25, 35, 45] : List Int).getD band 100 ≤ c ∧
      c ≤ ([-1, 4, 9, 14, 24, 34, 44, 55] : List Int).getD band 0 := by
  constructor
  · intro h
    unfold bandOf at h
    split_ifs at h <;> cases h <;> simp only [List.getD_cons_zero, List.getD_cons_succ] <;> omega
  · rintro ⟨low, high⟩
    have within : band < 8 := by
      by_contra beyond
      rw [List.getD_eq_default _ _ (by simp; omega)] at low high
      omega
    have ends : ∀ band < 8, -10 ≤ ([-10, 0, 5, 10, 15, 25, 35, 45] : List Int).getD band 100 ∧
        ([-1, 4, 9, 14, 24, 34, 44, 55] : List Int).getD band 0 ≤ 55 := by decide
    obtain ⟨least, most⟩ := ends band within
    obtain ⟨k, rfl⟩ : ∃ k : Nat, c = (k : Int) - 10 := ⟨(c + 10).toNat, by omega⟩
    exact bandOf_of_bounds k (by omega) band within low high

/-- The frame cost is the quotient by 1,000 rounded up (R141). -/
theorem frameCost_bounds (n f k : Nat) : n * f * k ≤ frameCost n f k * 1000 ∧ frameCost n f k * 1000 < n * f * k + 1000 := by
  unfold frameCost
  omega

/-- The reserves by class (R142). -/
theorem reserve_noticeUrgent {s : State} {j : Job} (h : j.cls = .noticeUrgent) : s.reserve j = s.cfg.param 28 := by
  rw [State.reserve, h]

theorem reserve_of_band {s : State} {j : Job} (h : j.cls = .row ∨ j.cls = .notice ∨ j.cls = .clock) :
    s.reserve j = s.cfg.param 29 := by
  rcases h with h | h | h <;> rw [State.reserve, h]

theorem reserve_clean {s : State} {j : Job} (h : j.cls = .clean) :
    s.reserve j = if s.tiles.spanUnknown j then s.cfg.param 29 else s.cfg.param 30 := by
  rw [State.reserve, h]

/-- A full clean's span is unknown when any tile of the panel is (R119). -/
theorem spanUnknown_clean {tm : TileMap} {j : Job} (h : j.cls = .clean) :
    tm.spanUnknown j = true ↔ ∃ x ∈ tm.tiles, x.shown = none := by
  simp [TileMap.spanUnknown, h]

/-! ### The choice (R149, R150) -/

theorem eligible_iff (s : State) (band : Nat) (j : Job) : s.eligible band j = true ↔
    j.state = .queued ∧ ¬(j.cls = .clean ∧ s.energy.conserve = true ∧ s.tiles.spanUnknown j = false) ∧
      s.cost j band + s.reserve j ≤ s.energy.estimate := by
  simp only [State.eligible, Bool.and_eq_true, beq_iff_eq, Bool.not_eq_true', Bool.and_eq_false_iff, decide_eq_true_eq,
    Bool.not_eq_false', beq_eq_false_iff_ne, and_assoc]
  cases s.energy.conserve <;> cases s.tiles.spanUnknown j <;> simp

theorem handJob_eq_none_iff (tm : TileMap) : tm.handJob = none ↔ ∀ k ∈ tm.jobs, k.inHand = false := by
  simp [TileMap.handJob]

/-- Everything that a choice says: the part idle, the temperature in a band, and the first eligible job (R149 to R151). -/
theorem chooseJob_eq_some_iff (s : State) (j : Job) (band : Nat) : s.chooseJob = some (j, band) ↔
    s.phase = .running ∧ (∀ k ∈ s.tiles.jobs, k.inHand = false) ∧ s.holdLatched = false ∧ s.band = some band ∧
      pickJob s.tiles.elapsed (s.tiles.jobs.filter (s.eligible band)) = some j := by
  rw [← handJob_eq_none_iff]
  unfold State.chooseJob
  split
  · next busy =>
    simp only [reduceCtorEq, false_iff]
    rintro ⟨running, idle, hold, -⟩
    simp [running, idle, hold] at busy
  · next free =>
    simp only [not_or, not_not, Bool.not_eq_true, Option.isSome_eq_false_iff, Option.isNone_iff_eq_none] at free
    obtain ⟨running, idle, hold⟩ := free
    cases s.band with
    | none => simp
    | some b => simp +contextual [running, idle, hold, and_comm, eq_comm (a := b)]

/-! ### The grant in each booster state (R152, R157) -/

/-- Of jobs with distinct numbers one is found by its own (R118). -/
theorem job_of_mem {tm : TileMap} {j : Job} (distinct : (tm.jobs.map (·.num)).Nodup) (mem : j ∈ tm.jobs) :
    tm.job j.num = some j := by
  cases found : tm.job j.num with
  | none =>
    have absent := List.find?_eq_none.mp found j mem
    simp at absent
  | some k =>
    obtain ⟨there, num⟩ := PanelInvariants.job_spec found
    exact congrArg some (List.inj_on_of_nodup_map distinct there mem num)

/-- The state with job `j` granted at the cost of a band, before the Panel Drive takes it (R152). -/
def granted (s : State) (j : Job) (band : Nat) : State :=
  { s with
    energy := { s.energy with estimate := s.energy.estimate - s.cost j band }
    tiles := s.tiles.changeJob j.num fun k => { k with state := .granted }
    drive := { s.drive with
      granted := some j.num
      frameCount := s.cfg.frames j.mode band
      framesDriven := 0
      retriesUsed := 0 } }

theorem attempt_eq {s : State} {j : Job} {band : Nat} (h : s.chooseJob = some (j, band)) :
    s.attempt = if j.cls = .clean then
        ((granted s j band).applySize j.num).setDrive
          { ((granted s j band).applySize j.num).drive with exchange := some .clean }
      else (granted s j band).meetBooster := by
  simp only [State.attempt, h]
  rfl

theorem attempt_of_not_clean {s : State} {j : Job} {band : Nat} (h : s.chooseJob = some (j, band)) (cls : j.cls ≠ .clean) :
    s.attempt = (granted s j band).meetBooster := (attempt_eq h).trans (if_neg cls)

/-- The granted job is found by its number, its other fields kept. -/
theorem granted_job {s : State} {j : Job} (distinct : (s.tiles.jobs.map (·.num)).Nodup) (mem : j ∈ s.tiles.jobs) (band : Nat) :
    (granted s j band).tiles.job j.num = some { j with state := .granted } := by
  simp only [granted]
  rw [job_changeJob _ _ (by exact fun _ => rfl), job_of_mem distinct mem]
  rfl

theorem granted_nums (s : State) (j : Job) (band : Nat) :
    (granted s j band).tiles.jobs.map (·.num) = s.tiles.jobs.map (·.num) := by
  simp only [granted, TileMap.changeJob, List.map_map]
  exact List.map_congr_left fun k _ =>
    PanelInvariants.changeJob_num (f := fun k => { k with state := .granted }) (fun _ => rfl) j.num k

/-- A granted job that drives at once has the snapshot of its span as the job in the queue (R130). -/
theorem startJob_granted {s : State} {j : Job} (distinct : (s.tiles.jobs.map (·.num)).Nodup) (mem : j ∈ s.tiles.jobs)
    (band : Nat) :
    (granted s j band).tiles.startJob j.num = { s.tiles with jobs := s.tiles.jobs.map fun k =>
      if k.num = j.num then { k with state := .driving, snapshot := snapshotOf j s.tiles.wt 0 s.tiles.tiles } else k } := by
  simp only [granted, TileMap.startJob, TileMap.changeJob, List.map_map]
  refine congrArg (fun l => { s.tiles with jobs := l }) (List.map_congr_left fun k hk => ?_)
  by_cases same : k.num = j.num
  · obtain rfl := List.inj_on_of_nodup_map distinct hk mem same
    have span : snapshotOf { k with state := .granted } s.tiles.wt 0 s.tiles.tiles = snapshotOf k s.tiles.wt 0 s.tiles.tiles := by
      rw [snapshotOf_eq, snapshotOf_eq]
      rfl
    simp only [Function.comp_apply, if_true, span]
  · simp only [Function.comp_apply, if_neg same]

/-! ### The size that a full clean applies (R74, R129) -/

/-- An application of the size touches the Composer, the Tile Map and the fault records alone (R129). -/
theorem applySize_eq (s : State) (n : Nat) : ∃ faults composer tiles,
    s.applySize n = { s with faults := faults, composer := composer, tiles := tiles } := by
  unfold State.applySize
  dsimp only
  split
  · obtain ⟨faults, rows, pixels, tiles, composed⟩ := StepInvariants.compose_eq { s with
      tiles := s.tiles.rebuilt (s.cfg.param 1) (s.cfg.param 2) n
      composer := .afterReset (s.cfg.param 1) (s.cfg.param 2) } allBands
    rw [composed]
    exact ⟨faults, ⟨rows, pixels⟩, _, rfl⟩
  · exact ⟨_, _, _, rfl⟩

theorem startDrive_energy (s : State) : s.startDrive.energy = s.energy := by
  unfold State.startDrive
  split <;> rfl

theorem meetOff_energy (s : State) : s.meetOff.energy = s.energy := by
  unfold State.meetOff
  split <;> rfl

theorem choose_energy (s : State) : s.choose.2.energy = s.energy := by
  unfold State.choose
  split <;> rfl

theorem meetBooster_energy (s : State) : s.meetBooster.energy = s.energy := by
  rcases meetBooster_cases s with e | e | e | e | e <;> rw [e]
  · exact meetOff_energy s
  · exact startDrive_energy _
  · exact (meetOff_energy _).trans (choose_energy s)
  · exact (startDrive_energy _).trans (choose_energy s)

/-- An attempt debits the cost of the job it grants, and touches nothing else of the energy (R152). -/
theorem attempt_energy {s : State} {j : Job} {band : Nat} (h : s.chooseJob = some (j, band)) :
    s.attempt.energy = { s.energy with estimate := s.energy.estimate - s.cost j band } := by
  rw [attempt_eq h]
  split
  · obtain ⟨faults, composer, tiles, applied⟩ := applySize_eq (granted s j band) j.num
    rw [applied]
    rfl
  · exact meetBooster_energy _

/-- Every tile is in the job `j`, number `n`, which is in hand (R129). -/
structure AllHeldBy (j : Job) (tm : TileMap) : Prop where
  mem : j ∈ tm.jobs
  hand : j.state ≠ .queued
  only : ∀ k ∈ tm.jobs, k.num = j.num → k = j
  tiles : ∀ x ∈ tm.tiles, x.job = some j.num

theorem AllHeldBy.job {j : Job} {tm : TileMap} (h : AllHeldBy j tm) : tm.job j.num = some j := by
  cases found : tm.job j.num with
  | none => simpa using List.find?_eq_none.mp found j h.mem
  | some k =>
    obtain ⟨mem, num⟩ := PanelInvariants.job_spec found
    exact congrArg some (h.only k mem num)

/-- A row all of whose tiles are in a job has no candidate (R121). -/
theorem candidates_of_held {row : List Tile} {n : Nat} (h : ∀ x ∈ row, x.job = some n) (c : Nat) : candidates c row = [] := by
  induction row generalizing c with
  | nil => rfl
  | cons x row ih =>
    rw [candidates, h x List.mem_cons_self, ih fun y hy => h y (List.mem_cons_of_mem x hy)]
    rfl

/-- Taking out the jobs that wait in a row leaves the job in hand its tiles. -/
theorem AllHeldBy.removeJobs_tiles {j : Job} {tm : TileMap} (h : AllHeldBy j tm) (r : Nat) :
    (tm.removeJobs (Job.waitsInRow r)).tiles = tm.tiles := by
  have stays : tm.jobs.any (fun k => k.num == j.num && k.waitsInRow r) = false := by
    rw [List.any_eq_false]
    intro k hk
    by_cases same : k.num = j.num
    · rw [h.only k hk same]
      simp [Job.waitsInRow, h.hand]
    · simp [same]
  rw [TileMap.removeJobs, List.map_congr_left fun x hx => ?_, List.map_id]
  rw [h.tiles x hx]
  simp only [stays]
  rfl

/-- Formation forms nothing on a panel that is in the job in hand: at most jobs that wait leave (R120 to R123). -/
theorem AllHeldBy.formRow {j : Job} {tm : TileMap} (h : AllHeldBy j tm) (band : JobClass) (r : Nat) :
    AllHeldBy j (tm.formRow band r).1 ∧ (tm.formRow band r).1.tiles = tm.tiles := by
  unfold TileMap.formRow
  split
  · exact ⟨h, rfl⟩
  · have tiles := h.removeJobs_tiles r
    have row : ∀ x ∈ (tm.removeJobs (Job.waitsInRow r)).rowTiles r, x.job = some j.num := fun x hx =>
      h.tiles x (tiles ▸ List.mem_of_mem_drop (List.mem_of_mem_take hx))
    dsimp only
    rw [candidates_of_held row]
    refine ⟨⟨List.mem_filter.mpr ⟨h.mem, by simp [Job.waitsInRow, h.hand]⟩, h.hand,
      fun k hk => h.only k (List.mem_of_mem_filter hk), fun x hx => h.tiles x (tiles ▸ hx)⟩, tiles⟩

theorem AllHeldBy.formRows {j : Job} {tm : TileMap} (h : AllHeldBy j tm) (band : JobClass) (rows : List Nat) :
    AllHeldBy j (TileMap.formRows band tm rows).1 ∧ (TileMap.formRows band tm rows).1.tiles = tm.tiles := by
  induction rows generalizing tm with
  | nil => exact ⟨h, rfl⟩
  | cons r rows ih =>
    obtain ⟨held, tiles⟩ := h.formRow band r
    obtain ⟨held', tiles'⟩ := ih held
    exact ⟨held', tiles'.trans tiles⟩

/-- Writing images changes nothing of a tile but its wanted signature (R91). -/
theorem writeImages_keeps (wt : Nat) (l : List (BandPart × List Nat × Nat)) {tiles : List Tile}
    (pixels : List (Option TilePixels)) {k : Nat} {t : Tile} (ht : tiles[k]? = some t) :
    ∃ w, (writeImages wt tiles pixels l).1[k]? = some { t with wanted := w } := by
  induction l generalizing tiles pixels t with
  | nil => exact ⟨t.wanted, ht⟩
  | cons q l ih =>
    obtain ⟨p, image, n⟩ := q
    have written := writeTiles_tile (Written.mk tiles pixels false) (p.row * wt + p.col) n image n k
    simp only [ht, Option.map_some] at written
    obtain ⟨w, done⟩ := ih ((Written.mk tiles pixels false).writeTiles (p.row * wt + p.col) n image n).pixels written
    refine ⟨w, done.trans (congrArg some ?_)⟩
    split <;> rfl

/-- A composition changes nothing of a tile but its wanted signature, and gives one to every tile that it covers (R87, R91). -/
theorem compose_tile {s : State} (rows : s.composer.rows.length = s.tiles.ht - 2) (wide : 6 ≤ s.tiles.wt)
    (high : 3 ≤ s.tiles.ht) (b : Bands) {i : Nat} {t : Tile} (ht : s.tiles.tiles[i]? = some t) :
    ∃ w, (s.compose b).1.tiles.tiles[i]? = some { t with wanted := w } ∧
      (b.cover s.tiles.wt s.tiles.ht i → w.isSome = true) := by
  have tiles : (s.evaluated b).tiles = s.tiles := by unfold State.evaluated; split <;> rfl
  have rows' : (s.evaluated b).composer.rows.length = (s.evaluated b).tiles.ht - 2 := by
    rw [tiles, ← rows]
    unfold State.evaluated
    split
    · exact evaluate_length s
    · rfl
  have out : (s.compose b).1.tiles.tiles = (writeImages (s.evaluated b).tiles.wt (s.evaluated b).tiles.tiles
      (s.evaluated b).composer.pixels ((s.evaluated b).renderParts ((s.evaluated b).bandParts b)).2).1 := rfl
  rw [out]
  generalize s.evaluated b = u at *
  rw [← tiles] at wide high ht ⊢
  obtain ⟨w, kept⟩ := writeImages_keeps u.tiles.wt (u.renderParts (u.bandParts b)).2 u.composer.pixels ht
  refine ⟨w, kept, fun covered => ?_⟩
  obtain ⟨p, hp, within⟩ := (bandParts_cover rows' high wide b i).mpr covered
  obtain ⟨q, -, -, y, hy, wanted⟩ := (writeImages_tile u.tiles.wt (u.renderParts (u.bandParts b)).2 u.tiles.tiles
    u.composer.pixels i t ht).2 ⟨_, (mem_renderParts ..).mpr ⟨p, hp, rfl⟩, within⟩
  obtain rfl : { t with wanted := w } = y := Option.some.inj (kept.symm.trans hy)
  exact Option.isSome_iff_exists.mpr ⟨_, wanted⟩

/-- All bands cover every tile (R73). -/
theorem allBands_cover {wt ht i : Nat} (h : i < wt * ht) : allBands.cover wt ht i := by
  have row : i / wt < ht := Nat.div_lt_of_lt_mul h
  by_cases top : i / wt = 0
  · exact .inl ⟨top, .inl rfl⟩
  · by_cases bottom : i / wt + 1 = ht
    · exact .inr (.inr ⟨rfl, bottom⟩)
    · exact .inr (.inl ⟨rfl, Nat.one_le_iff_ne_zero.mpr top, by omega⟩)

/-- A configuration in its ranges gives a panel of at least 6 by 3 tiles (R188). -/
theorem size_of_inRange {c : ConfigRecord} (h : c.inRange = true) : 6 ≤ c.param 1 ∧ 3 ≤ c.param 2 := by
  have width := Completion.param_inRange h (id := 1) (by omega) (by omega)
  have height := Completion.param_inRange h (id := 2) (by omega) (by omega)
  simp [paramInRange, plainRange] at width height
  omega

/-- The state of a new size with its records rebuilt, before it is recomposed (R129). -/
def resized (s : State) (n : Nat) : State :=
  { s with
    tiles := s.tiles.rebuilt (s.cfg.param 1) (s.cfg.param 2) n
    composer := .afterReset (s.cfg.param 1) (s.cfg.param 2) }

/-- What an application of the size in the clean `j` leaves of the panel: records of the new size, all in the clean, with the
wanted signatures of a recomposition from EMPTY rows (R74, R129). -/
structure Resized (s : State) (j : Job) (t : State) : Prop where
  wt : t.tiles.wt = s.cfg.param 1
  ht : t.tiles.ht = s.cfg.param 2
  length : t.tiles.tiles.length = s.cfg.param 1 * s.cfg.param 2
  job : t.tiles.job j.num = some { j with row := 0, first := 0, last := s.cfg.param 1 - 1 }
  rows : t.composer.rows =
    State.evaluate { s with composer := { s.composer with rows := List.replicate (s.cfg.param 2 - 2) .empty } }
  tiles : ∀ (i : Nat) (x : Tile), t.tiles.tiles[i]? = some x →
    x.shown = none ∧ x.ghost = 0 ∧ x.clearDue = false ∧ x.job = some j.num ∧
      ∃ px, t.composer.pixels[i]? = some (some px) ∧ x.wanted = some (signature px)

/-- The application of a pending size at the grant of the clean `j`, the one job of its number (R129). -/
theorem applySize_resized {s : State} {j : Job} (differs : s.sizeDiffers = true) (config : s.cfg.inRange = true)
    (mem : j ∈ s.tiles.jobs) (hand : j.state ≠ .queued) (only : ∀ k ∈ s.tiles.jobs, k.num = j.num → k = j) :
    Resized s j (s.applySize j.num) := by
  obtain ⟨wide, high⟩ := size_of_inRange config
  have applied : s.applySize j.num = ((resized s j.num).compose allBands).1.formAll ((resized s j.num).compose allBands).2 :=
    if_pos differs
  have blank : (resized s j.num).imageSound := PanelInvariants.imageSound_of_blank rfl rfl rfl rfl
  have rows := compose_rows (resized s j.num) allBands
  have sound := PanelInvariants.compose_imageSound blank allBands
  have geometry := compose_geometry (resized s j.num) allBands
  have jobs : ((resized s j.num).compose allBands).1.tiles.jobs = (resized s j.num).tiles.jobs := by
    obtain ⟨faults, rows, pixels, tiles, e⟩ := StepInvariants.compose_eq (resized s j.num) allBands
    rw [e]
  have composed (i : Nat) (x : Tile) (hx : ((resized s j.num).compose allBands).1.tiles.tiles[i]? = some x) :
      ∃ w, x = { Tile.unknown (some j.num) with wanted := some w } := by
    have within : i < s.cfg.param 1 * s.cfg.param 2 := by
      have length := sound.1
      rw [geometry.1, geometry.2] at length
      exact length ▸ (List.getElem?_eq_some_iff.mp hx).1
    have before : (resized s j.num).tiles.tiles[i]? = some (.unknown (some j.num)) := by
      simp [resized, TileMap.rebuilt, within]
    obtain ⟨w, after, wanted⟩ := compose_tile blank.2.2.1 wide high allBands before
    obtain ⟨v, rfl⟩ := Option.isSome_iff_exists.mp (wanted (allBands_cover within))
    exact ⟨v, Option.some.inj (hx.symm.trans after)⟩
  generalize ((resized s j.num).compose allBands).1 = c, ((resized s j.num).compose allBands).2 = handed at *
  have held : AllHeldBy { j with row := 0, first := 0, last := s.cfg.param 1 - 1 } c.tiles := by
    refine ⟨?_, hand, fun k hk num => ?_, fun x hx => ?_⟩
    · rw [jobs]
      exact List.mem_map.mpr ⟨j, mem, if_pos rfl⟩
    · rw [jobs] at hk
      obtain ⟨k', hk', rfl⟩ := List.mem_map.mp hk
      by_cases same : k'.num = j.num
      · rw [only k' hk' same, if_pos rfl]
      · exact absurd (by simpa [if_neg same] using num) same
    · obtain ⟨i, hi⟩ := List.mem_iff_getElem?.mp hx
      obtain ⟨w, rfl⟩ := composed i x hi
      rfl
  obtain ⟨held', tiles'⟩ := held.formRows c.notices.jobClass handed
  have formed := formRows_sameGlass c.notices.jobClass handed c.tiles
  have same : (c.formAll handed).tiles.tiles = c.tiles.tiles := tiles'
  rw [applied]
  refine ⟨formed.wt.trans geometry.1, formed.ht.trans geometry.2, ?_, held'.job, rows, fun i x hx => ?_⟩
  · rw [same, sound.1, geometry.1, geometry.2]
    rfl
  · rw [same] at hx
    obtain ⟨w, rfl⟩ := composed i x hx
    obtain ⟨px, kept, rfl⟩ := sound.2.2.2 i _ w hx rfl
    exact ⟨rfl, rfl, rfl, rfl, px, kept, rfl⟩

/-- The grant of a job by the state of the booster (R157). -/
theorem attempt_by_booster {s : State} {j : Job} {band : Nat} (chosen : s.chooseJob = some (j, band)) (cls : j.cls ≠ .clean) :
    (s.drive.booster = .off → s.attempt = if s.drive.supplyAbove then (granted s j band).startRise else granted s j band) ∧
    (s.drive.booster = .ready → s.timers.linger.due = false → s.attempt = (granted s j band).meetReady) ∧
    (s.drive.booster = .driving → s.attempt = granted s j band) := by
  rw [attempt_of_not_clean chosen cls]
  exact ⟨fun off => meetBooster_off off, fun ready notDue => meetBooster_ready ready notDue,
    fun driving => meetBooster_driving driving⟩

/-- Settles O34: the arbiter's choice by its conditions, the grant by class and booster state, and the arithmetic of both. -/
theorem grantMeetsEveryCondition : Obligations.GrantMeetsEveryCondition := by
  refine ⟨fun s j band chosen => ?choice, fun s => ⟨fun none => ?nothing, ?something⟩,
    fun s j band chosen distinct => ?grant, fun s j band => ?cost, bandOf_iff, fun a b elapsed ha hb => ?order⟩
  case choice =>
    obtain ⟨running, idle, hold, temp, picked⟩ := (chooseJob_eq_some_iff s j band).mp chosen
    obtain ⟨mem, eligible⟩ := List.mem_filter.mp (StepInvariants.pickJob_mem picked)
    obtain ⟨queued, clean, pays⟩ := (eligible_iff s band j).mp eligible
    obtain ⟨c, sampled, banded⟩ := Option.bind_eq_some_iff.mp temp
    have within : -10 ≤ c ∧ c ≤ 55 := by
      by_contra outside
      unfold bandOf at banded
      split_ifs at banded <;> omega
    refine ⟨mem, queued, idle, hold, ⟨c, sampled, within.1, within.2, banded⟩, clean, pays,
      fun k hk first => pickJob_first picked k (List.mem_filter.mpr ⟨hk, first⟩), ?_⟩
    rw [attempt_energy chosen]
    dsimp only
    omega
  case nothing => simp only [State.attempt, none]
  case something =>
    intro running idle hold c band k sampled banded mem queued clean pays
    have eligible : k ∈ s.tiles.jobs.filter (s.eligible band) :=
      List.mem_filter.mpr ⟨mem, (eligible_iff s band k).mpr ⟨queued, clean, pays⟩⟩
    cases picked : pickJob s.tiles.elapsed (s.tiles.jobs.filter (s.eligible band)) with
    | none => exact absurd eligible (pickJob_eq_none.mp picked ▸ List.not_mem_nil)
    | some j =>
      refine ⟨j, (chooseJob_eq_some_iff s j band).mpr ⟨running, idle, hold, ?_, picked⟩⟩
      rw [State.band, sampled]
      exact banded
  case grant =>
    obtain ⟨-, mem, -⟩ := StepInvariants.chooseJob_spec chosen
    have found := granted_job distinct mem band
    intro frames debited jobs drive granted'
    have same : granted' = granted s j band := by
      simp only [granted', granted, drive, debited, jobs, frames, ConfigRecord.frames, pairPartial, pairFull]
      rfl
    refine ⟨fun cls => ?plain, fun cls sameSize => ?clean, fun cls differs config => ?resize⟩
    case plain =>
      obtain ⟨off, ready, driving⟩ := attempt_by_booster chosen cls
      refine ⟨fun isOff above => ?_, fun isOff below => ?_, fun isReady notDue => ?_, fun isDriving => ?_⟩
      · rw [off isOff, if_pos above, same]
        rfl
      · rw [off isOff, if_neg (by simp [below]), same]
      · rw [ready isReady notDue, State.meetReady, CutFrame.startDrive_eq (by exact rfl) (by exact found)]
        dsimp only
        rw [startJob_granted distinct mem]
        rfl
      · rw [driving isDriving, same]
    case clean =>
      rw [attempt_eq chosen, if_pos cls, applySize_same (by exact sameSize), same]
      rfl
    case resize =>
      have run := attempt_eq chosen
      rw [if_pos cls] at run
      have only : ∀ k ∈ (granted s j band).tiles.jobs, k.num = j.num → k = { j with state := .granted } := fun k hk num =>
        List.inj_on_of_nodup_map (granted_nums s j band ▸ distinct) hk (PanelInvariants.job_spec found).1 num
      obtain ⟨wt, ht, length, job, rows, tiles⟩ := applySize_resized (s := granted s j band)
        (j := { j with state := .granted }) differs config (PanelInvariants.job_spec found).1 (by simp) only
      obtain ⟨faults, composer, tileMap, applied⟩ := applySize_eq (granted s j band) j.num
      dsimp only
      refine ⟨attempt_panelWork s, attempt_energy chosen, ?_, ?_, ?_⟩
      · rw [run, applied]
        rfl
      · rw [run, applied]
        rfl
      · rw [run]
        exact ⟨wt, ht, length, job, rows, tiles⟩
  case cost =>
    intro tiles frames work
    refine ⟨⟨frameCost tiles frames (s.cfg.param 23), ?_, frameCost_bounds ..⟩, reserve_noticeUrgent, reserve_of_band,
      fun cls unknown => ?_, fun cls known => ?_⟩
    · cases hm : j.mode <;> simp only [State.cost, tiles, frames, TileMap.tileCount, ConfigRecord.frames, hm,
        pairPartial, pairFull]
    · have some_unknown := (spanUnknown_clean (tm := s.tiles) cls).mpr unknown
      exact ⟨some_unknown, (reserve_clean cls).trans (if_pos some_unknown)⟩
    · have none_unknown : s.tiles.spanUnknown j = false := by
        rw [← Bool.not_eq_true, spanUnknown_clean cls]
        rintro ⟨x, hx, shown⟩
        exact known x hx shown
      exact ⟨none_unknown, (reserve_clean cls).trans (if_neg (by simp [none_unknown]))⟩
  case order =>
    have first := goesBefore_iff elapsed a b
    rw [priority_eq ha, priority_eq hb, Int.ofNat_lt, Int.ofNat_inj] at first
    exact first

end Sys2Proof.Grants
end

section
/-! PROOFS. The refill of the board (01 R10, R22): what it adds, what it keeps, and which parts of the state it reads. -/

namespace Sys2Proof.Refill

open Sys2Proof.Machine

/-! ### The offers of a refill -/

/-- The entry that an offered trip becomes (R10). -/
def planned (o : Role × Trip) : Entry :=
  ⟨o.2.key, o.1.origin, o.2.dest, o.2.platform, some (o.2.sched o.1), none, .planned⟩

/-- A trip in the window, on a shown platform and not gone (R10). -/
def wanted (s : State) (o : Role × Trip) : Bool :=
  s.inWindow (o.2.sched o.1) && s.cfg.shows o.2.platform && !s.board.isGone o.2.key

/-- The trips that a refill offers, the CURRENT bank's first (R10). -/
def offers (s : State) (r : Roles) : List (Role × Trip) :=
  (s.bankTrips r.current).map (Role.current, ·) ++ (s.bankTrips r.next).map (Role.next, ·)

/-- One offer of a refill (R10). -/
def offer (a : State × Bool) (o : Role × Trip) : State × Bool := State.offerTrip o.1 a o.2

theorem refillFrom_eq {s : State} (running : s.clockRunning = true) (r : Roles) :
    s.refillFrom r = (offers s r).foldl offer (s, false) := by
  rw [State.refillFrom, if_pos running, offers, List.foldl_append, List.foldl_map, List.foldl_map]
  rfl

theorem refillFrom_unset {s : State} (unset : s.clockRunning = false) (r : Roles) : s.refillFrom r = (s, false) := by
  rw [State.refillFrom, unset, if_neg Bool.false_ne_true]

/-- An offer inserts the trip where it is wanted and its key stands nowhere on the board, and else does nothing (R10). -/
theorem offer_eq (a : State × Bool) (o : Role × Trip) : offer a o =
    if wanted a.1 o = true ∧ a.1.board.find o.2.key = none then
      ((a.1.insertEntry (planned o)).1, a.2 || (a.1.insertEntry (planned o)).2)
    else a := by
  unfold offer State.offerTrip
  dsimp only
  refine if_congr ?_ rfl rfl
  simp only [wanted, Bool.and_eq_true, Option.isNone_iff_eq_none]
  tauto

theorem offer_boardWork (a : State × Bool) (o : Role × Trip) : BoardWork a.1 (offer a o).1 := offerTrip_boardWork o.1 a o.2

theorem offer_gone (a : State × Bool) (o : Role × Trip) : (offer a o).1.board.gone = a.1.board.gone := by
  rw [offer_eq]
  split
  · exact insertEntry_gone ..
  · rfl

/-- The window is that of the clock and of the configuration (R10). -/
theorem inWindow_alike {s t : State} (clock : t.clock = s.clock) (cfg : t.cfg = s.cfg) (x : Int) :
    t.inWindow x = s.inWindow x := by
  rw [State.inWindow, State.inWindow, State.now, State.now, clock, cfg]

/-- What is wanted stays so while the board takes entries. -/
theorem wanted_of_work {s t : State} (work : BoardWork s t) (gone : t.board.gone = s.board.gone) (o : Role × Trip) :
    wanted t o = wanted s o := by
  have clock : t.clock = s.clock := by rw [work.others]
  have cfg : t.cfg = s.cfg := by rw [work.others]
  rw [wanted, wanted, inWindow_alike clock cfg, Board.isGone, Board.isGone, gone, cfg]

/-- An insertion adds no other entry (R9). -/
theorem insertEntry_entries {s : State} {e x : Entry} (h : x ∈ (s.insertEntry e).1.board.entries) :
    x = e ∨ x ∈ s.board.entries := by
  unfold State.insertEntry at h
  split at h
  · exact (mem_placeEntry ..).mp h
  · split at h
    · exact .inr h
    · split at h
      · exact ((mem_placeEntry ..).mp h).imp_right List.mem_of_mem_dropLast
      · exact .inr h

theorem insertEntry_of_room {s : State} (room : s.board.entries.length < 32) (e : Entry) :
    (s.insertEntry e).1.board.entries = placeEntry e s.board.entries := by
  rw [State.insertEntry, if_pos room]
  rfl

/-- The offers keep the gone list and bring wanted trips alone (R10). -/
theorem offers_spec (l : List (Role × Trip)) (a : State × Bool) :
    BoardWork a.1 (l.foldl offer a).1 ∧ (l.foldl offer a).1.board.gone = a.1.board.gone ∧
      ∀ e ∈ (l.foldl offer a).1.board.entries, e ∈ a.1.board.entries ∨ ∃ o ∈ l, wanted a.1 o = true ∧ e = planned o := by
  induction l generalizing a with
  | nil => exact ⟨.refl _, rfl, fun e he => .inl he⟩
  | cons o l ih =>
    obtain ⟨work, gone, entries⟩ := ih (offer a o)
    have first := offer_boardWork a o
    refine ⟨first.trans work, gone.trans (offer_gone a o), fun e he => ?_⟩
    rcases entries e he with old | ⟨p, hp, want, rfl⟩
    · rw [offer_eq] at old
      split at old
      · next taken =>
        rcases insertEntry_entries old with rfl | old
        · exact .inr ⟨o, List.mem_cons_self, taken.1, rfl⟩
        · exact .inl old
      · exact .inl old
    · rw [wanted_of_work first (offer_gone a o)] at want
      exact .inr ⟨p, List.mem_cons_of_mem o hp, want, rfl⟩

theorem find_eq_none_iff {b : Board} {k : Key} : b.find k = none ↔ ∀ e ∈ b.entries, e.key ≠ k := by
  simp [Board.find]

/-- Where there is room for an offer, its key stands on the board afterwards, and no entry leaves (R10). -/
theorem offer_of_room {a : State × Bool} (room : a.1.board.entries.length < 32) (o : Role × Trip) :
    (offer a o).1.board.entries.length ≤ a.1.board.entries.length + 1 ∧
    (∀ e ∈ a.1.board.entries, e ∈ (offer a o).1.board.entries) ∧
    (∀ e ∈ (offer a o).1.board.entries, e ∈ a.1.board.entries ∨ a.1.board.find e.key = none) ∧
    (wanted a.1 o = true → ∃ e ∈ (offer a o).1.board.entries, e.key = o.2.key) := by
  rw [offer_eq]
  split
  · next taken =>
    simp only [insertEntry_of_room room, length_placeEntry, mem_placeEntry]
    refine ⟨le_rfl, fun e he => .inr he, fun e he => ?_, fun _ => ⟨planned o, .inl rfl, rfl⟩⟩
    rcases he with rfl | he
    · exact .inr taken.2
    · exact .inl he
  · next refused =>
    refine ⟨Nat.le_succ _, fun e he => he, fun e he => .inl he, fun want => ?_⟩
    by_contra absent
    exact refused ⟨want, find_eq_none_iff.mpr fun e he same => absent ⟨e, he, same⟩⟩

/-- Where there is room for every offer, no entry leaves, no key that stood is added, and no wanted trip is left out (R10). -/
theorem offers_of_room (l : List (Role × Trip)) {a : State × Bool} (room : a.1.board.entries.length + l.length ≤ 32) :
    (∀ e ∈ a.1.board.entries, e ∈ (l.foldl offer a).1.board.entries) ∧
    (∀ e ∈ (l.foldl offer a).1.board.entries, e ∈ a.1.board.entries ∨ a.1.board.find e.key = none) ∧
    ∀ o ∈ l, wanted a.1 o = true → ∃ e ∈ (l.foldl offer a).1.board.entries, e.key = o.2.key := by
  induction l generalizing a with
  | nil => exact ⟨fun e he => he, fun e he => .inl he, fun o ho => by cases ho⟩
  | cons o l ih =>
    rw [List.length_cons] at room
    obtain ⟨length, kept, fresh, added⟩ := offer_of_room (a := a) (by omega) o
    obtain ⟨kept', fresh', added'⟩ := ih (a := offer a o) (by omega)
    refine ⟨fun e he => kept' e (kept e he), fun e he => ?_, fun p hp want => ?_⟩
    · rcases fresh' e he with old | new
      · exact fresh e old
      · exact .inr (find_eq_none_iff.mpr fun x hx => find_eq_none_iff.mp new x (kept x hx))
    · rcases List.mem_cons.mp hp with rfl | later
      · obtain ⟨e, he, same⟩ := added want
        exact ⟨e, kept' e he, same⟩
      · exact added' p later (by rwa [wanted_of_work (offer_boardWork a o) (offer_gone a o)])

/-! ### What a refill reads -/

/-- Two states between which a refill does not tell: one board, one configuration, one clock, and the same trips. -/
structure Alike (s t : State) : Prop where
  board : t.board = s.board
  cfg : t.cfg = s.cfg
  clock : t.clock = s.clock

theorem insertEntry_alike {s t : State} (h : Alike s t) (e : Entry) :
    Alike (s.insertEntry e).1 (t.insertEntry e).1 ∧ (t.insertEntry e).2 = (s.insertEntry e).2 := by
  unfold State.insertEntry
  rw [h.board]
  split
  · exact ⟨⟨rfl, h.cfg, h.clock⟩, rfl⟩
  · split
    · exact ⟨⟨h.board, h.cfg, h.clock⟩, rfl⟩
    · split
      · exact ⟨⟨rfl, h.cfg, h.clock⟩, rfl⟩
      · exact ⟨⟨h.board, h.cfg, h.clock⟩, rfl⟩

theorem offer_alike {a b : State × Bool} (h : Alike a.1 b.1) (flag : b.2 = a.2) (o : Role × Trip) :
    Alike (offer a o).1 (offer b o).1 ∧ (offer b o).2 = (offer a o).2 := by
  have want : wanted b.1 o = wanted a.1 o := by
    rw [wanted, wanted, inWindow_alike h.clock h.cfg, h.board, h.cfg]
  obtain ⟨alike, placed⟩ := insertEntry_alike h (planned o)
  rw [offer_eq, offer_eq, want, h.board]
  split
  · exact ⟨alike, by rw [placed, flag]⟩
  · exact ⟨h, flag⟩

theorem offers_alike (l : List (Role × Trip)) {a b : State × Bool} (h : Alike a.1 b.1) (flag : b.2 = a.2) :
    Alike (l.foldl offer a).1 (l.foldl offer b).1 ∧ (l.foldl offer b).2 = (l.foldl offer a).2 := by
  induction l generalizing a b with
  | nil => exact ⟨h, flag⟩
  | cons o l ih =>
    obtain ⟨alike, same⟩ := offer_alike h flag o
    exact ih alike same

/-- A refill reads the board, the configuration, the clock and the trips of its banks alone. -/
theorem refillFrom_alike {s t : State} (h : Alike s t) (flash : t.flash = s.flash) (r : Roles) :
    Alike (s.refillFrom r).1 (t.refillFrom r).1 ∧ (t.refillFrom r).2 = (s.refillFrom r).2 := by
  have running : t.clockRunning = s.clockRunning := by rw [State.clockRunning, State.clockRunning, h.clock]
  have trips : offers t r = offers s r := by simp only [offers, State.bankTrips, flash]
  cases run : s.clockRunning with
  | false =>
    rw [refillFrom_unset run, refillFrom_unset (running.trans run)]
    exact ⟨h, rfl⟩
  | true =>
    rw [refillFrom_eq run, refillFrom_eq (running.trans run), trips]
    exact offers_alike _ h rfl

/-- A rebuild reads the configuration, the clock and the trips of its banks alone (R22). -/
theorem rebuildFrom_board_alike {s t : State} (cfg : t.cfg = s.cfg) (clock : t.clock = s.clock) (flash : t.flash = s.flash)
    (r : Roles) : (t.rebuildFrom r).board = (s.rebuildFrom r).board :=
  (refillFrom_alike (s := s.setBoard ⟨[], []⟩) (t := t.setBoard ⟨[], []⟩) ⟨rfl, cfg, clock⟩ flash r).1.board

theorem rebuild_board_alike {s t : State} (cfg : t.cfg = s.cfg) (clock : t.clock = s.clock) (flash : t.flash = s.flash)
    (store : t.store = s.store) : t.rebuild.board = s.rebuild.board := by
  rw [State.rebuild, State.rebuild, store]
  exact rebuildFrom_board_alike cfg clock flash _

/-- A rebuild leaves the gone list empty (R22). -/
theorem rebuildFrom_gone (s : State) (r : Roles) : (s.rebuildFrom r).board.gone = [] := by
  unfold State.rebuildFrom
  cases run : (s.setBoard ⟨[], []⟩).clockRunning with
  | false => rw [refillFrom_unset run]; rfl
  | true =>
    rw [refillFrom_eq run]
    exact (offers_spec _ _).2.1

end Sys2Proof.Refill
end

section
/-! PROOFS. The uploads (02 R34 to R41): UPLOAD_BEGIN, TRIP_BLOCK, UPLOAD_COMMIT and UPLOAD_ABORT with the ends of their writes, and
the idle timeout. -/

namespace Sys2Proof.Uploads

open Sys2Proof.Machine

/-! ### Requests at the head -/

section Head

variable {s : State} {r : Request} {rest : List Request}

/-- A request taken with its length allowed is worked on by its payload (R186). -/
theorem take_eq {kind : Nat} {p : List Byte} (h : s.headIs r rest) (hk : r.kind.toNat = kind) (hp : r.payload = p)
    (hl : lengthAllowed kind p.length = true) (f : List Byte → State → State) : s.take kind f = f p s :=
  hp ▸ take_work h hk (hp ▸ hl) f

/-- While the context is open an upload request restarts the idle timer (R40). -/
theorem touchUpload_open {u : Upload} (h : s.store.upload = some u) :
    s.touchUpload = { s with timers := { s.timers with upload := s.timers.upload.start } } := by
  rw [State.touchUpload, h]
  rfl

theorem touchUpload_closed (h : s.store.upload = none) : s.touchUpload = s := by
  rw [State.touchUpload, h]
  rfl

/-- The reply to a request at the head, with the link that it leaves (R187). -/
theorem reply_eq {t : State} (h : s.headIs r rest) (same : t.link = s.link) (e : Result) (d : List Byte) :
    t.reply e d = { t with link := s.link.answered r rest e.code t.faults.newsFlag d } := by
  rw [reply_answered (same ▸ headIs_requests h), same]

end Head

/-! ### UPLOAD_BEGIN (R34) -/

/-- A date in reach: any while UNSET, else today's or tomorrow's (R34). -/
theorem dateInReach_iff (s : State) (date : Nat) : s.dateInReach date = true ↔
    s.clock.time = none ∨ ∃ u, s.clock.time = some u ∧ (date = u.date ∨ (u.date ≠ 65535 ∧ date = u.date + 1)) := by
  unfold State.dateInReach
  cases s.clock.time <;> simp

theorem exec_uploadBegin_of_headIs {s : State} {r : Request} {rest : List Request} {d1 d0 : Byte} (h : s.headIs r rest)
    (hk : r.kind = 0x06) (hp : r.payload = [d1, d0]) :
    exec .uploadBegin s = .next (
      let t := s.touchUpload
      if t.store.upload.isSome then t.reply .active []
      else if t.dateInReach (d1.toNat * 256 + d0.toNat) then
        (t.setStore (t.store.setBank t.store.target (t.store.bank t.store.target).fill)).startWrite
          (.bankErase t.store.target (d1.toNat * 256 + d0.toNat))
      else t.reply .badDate []) :=
  congrArg Host.Outcome.next (take_eq h (by rw [hk]; rfl) hp rfl _)

/-- Settles O47: the two refusals and the erase, and the ends of the erase and of the FILLING header write. -/
theorem uploadBeginOpensTheContext : Obligations.UploadBeginOpensTheContext := by
  refine ⟨fun s r rest d1 d0 h hk hp => ?begin, fun s i date write => ?erased, fun s i date r rest writing => ?opened⟩
  case begin =>
    intro date inReach target
    rw [exec_uploadBegin_of_headIs h hk hp]
    refine ⟨fun active => ?_, fun closed out => ?_, fun closed reach => ?_⟩
    · obtain ⟨u, active⟩ := Option.ne_none_iff_exists'.mp active
      rw [touchUpload_open active]
      dsimp only
      rw [active, if_pos (by rfl), reply_eq h (by rfl)]
      rfl
    · rw [touchUpload_closed closed]
      dsimp only
      rw [closed, if_neg (by simp), if_neg (by rwa [dateInReach_iff]), reply_eq h (by rfl)]
      rfl
    · rw [touchUpload_closed closed]
      dsimp only
      rw [closed, if_neg (by simp), if_pos (by rwa [dateInReach_iff])]
      rfl
  case erased =>
    simp only [exec, execBankEraseEnd, write, if_true]
    rfl
  case opened =>
    obtain ⟨write, requests⟩ := writing
    refine ⟨(Config.fillingCount s.freeCount).val, Config.fillingCheck s.freeCount,
      (Config.fillingCommit s.freeCount).toNat, by omega, by omega, ?_⟩
    have number : b8 i.number = [if i = .a then 0 else 1] := by cases i <;> rfl
    simp only [exec, execFillingHeaderWriteEnd, write, if_true]
    rw [reply_answered (r := r) (rest := rest) (by exact requests), number]
    cases i <;> rfl

/-! ### UPLOAD_ABORT and the idle timeout (R39, R40) -/

/-- An abort of an open upload frees its target, closes the context and stops the idle timer (R39). -/
theorem abortUpload_eq {s : State} {u : Upload} (h : s.store.upload = some u) :
    s.abortUpload = { s with
      store := { s.store.setBank u.target { s.store.bank u.target with state := .free, role := none } with upload := none }
      timers := { s.timers with upload := s.timers.upload.stop } } := by
  simp only [State.abortUpload, Store.abort, h]
  rfl

/-- Settles O50: the refusal, the abort, and the start-up check of a FILLING header. -/
theorem uploadAbortFreesTheTarget : Obligations.UploadAbortFreesTheTarget := by
  refine ⟨fun s r rest h hk hp => ?abort, fun b date count check commit header => ?check⟩
  case abort =>
    have run : exec .uploadAbort s = .next
        (if s.store.upload.isSome then s.abortUpload.reply .ok [] else s.reply .noUpload []) :=
      congrArg Host.Outcome.next (take_eq h (by rw [hk]; rfl) hp rfl _)
    refine ⟨fun closed => ?_, fun u active => ?_⟩
    · rw [run, closed, if_neg (by simp), reply_eq h (by rfl)]
      rfl
    · rw [run, abortUpload_eq active, active, if_pos (by rfl), reply_eq h (by rfl)]
      rfl
  case check => rw [StoredBank.checked, header]

/-- The four writes of upload requests (R34 to R38). -/
theorem ofUpload_iff (w : FlashWrite) : w.ofUpload = true ↔
    (∃ i d, w = .bankErase i d) ∨ (∃ i d, w = .fillingHeader i d) ∨ (∃ ts, w = .tripBlock ts) ∨
      ∃ i d n k m, w = .commitHeader i d n k m := by
  cases w <;> simp [FlashWrite.ofUpload]

/-- Settles O51: the timeout's abort, and the two states in which it does not arise. -/
theorem idleTimeoutAbortsTheUpload : Obligations.IdleTimeoutAbortsTheUpload := by
  refine ⟨fun s u running zero active other => ?aborts, fun s w write upload => ?waits, fun s notDue => ?notDue⟩
  case aborts =>
    have due : s.timers.upload.due = true := (Timer.due_iff _).mpr ⟨running, zero⟩
    have free : s.link.write.any FlashWrite.ofUpload = false := by
      cases write : s.link.write with
      | none => rfl
      | some w => exact Bool.eq_false_iff.mpr fun upload => other w write ((ofUpload_iff w).mp upload)
    simp only [exec, execUploadIdleTimeout, due, free, active, abortUpload_eq active]
    rfl
  case waits =>
    have busy : s.link.write.any FlashWrite.ofUpload = true := by
      rw [write]
      exact (ofUpload_iff w).mpr upload
    simp [exec, execUploadIdleTimeout, busy]
  case notDue =>
    have notDue : s.timers.upload.due = false := by
      rw [← Bool.not_eq_true, Timer.due_iff]
      rintro ⟨running, zero⟩
      simp [running, zero] at notDue
    simp [exec, execUploadIdleTimeout, notDue]

/-! ### A write that fails (R41) -/

/-- STORE_FAIL and STORE/106 touch the link, the fault records and the schedule alone (R41, R187). -/
theorem storeFail_eq {s t : State} {r : Request} {rest : List Request} (requests : s.link.requests = r :: rest)
    (same : t.link = s.link) (data : List Byte) :
    ∃ l news, t.storeFail data = { t with
      schedule := l
      faults := t.faults.raise .store106 t.clock.stamp
      link := s.link.answered r rest 15 news data } := by
  obtain ⟨l, news, failed⟩ := StopWindows.storeFail_answered (same ▸ requests) data
  exact ⟨l, news, failed.trans (by rw [same])⟩

/-- A bank written in flash leaves the other one. -/
theorem setBank_other (f : Flash) (i : BankId) (b : StoredBank) : (f.setBank i b).bank i.other = f.bank i.other := by
  cases i <;> rfl

theorem setBank_tables (f : Flash) (i : BankId) (b : StoredBank) :
    (f.setBank i b).texts = f.texts ∧ (f.setBank i b).glyphs = f.glyphs ∧ (f.setBank i b).config = f.config := by
  cases i <;> exact ⟨rfl, rfl, rfl⟩

/-- A bank's record written with no context open leaves none open. -/
theorem setBank_closed {st : Store} (h : st.upload = none) (i : BankId) (x : BankRecord) :
    st.setBank i x = { st.setBank i x with upload := none } := by
  cases i <;> simp [Store.setBank, h]

/-- With no context open TRIP_BLOCK is answered with the expected number 0 and no trips (R34, R35). -/
theorem blockData_closed {st : Store} (h : st.upload = none) : st.blockData = [0, 0, 0] := by
  rw [Store.blockData, Store.expected, Store.tripsSoFar, h]
  rfl

/-- The state after the failed write of an upload request: what the write left in flash, and the target's record freed (R41,
notes/assumptions/10.md). -/
def writeFailed (s : State) (i : BankId) (left : StoredBank) (timers : Timers) : State :=
  { s with
    freeCount := s.freeCount + 1
    flash := s.flash.setBank i left
    store := { s.store.setBank i { s.store.bank i with state := .free, role := none } with upload := none }
    timers := timers }

/-- Settles O52: each failed write frees the target and is answered alike. -/
theorem failedUploadWriteFreesTheTarget : Obligations.FailedUploadWriteFreesTheTarget := by
  intro s c w i r rest data timers writing stopped kinds
  obtain ⟨write, requests⟩ := writing
  suffices run : ∃ left, exec c s = .next ((writeFailed s i left timers).storeFail data) by
    obtain ⟨left, run⟩ := run
    obtain ⟨l, news, failed⟩ := storeFail_eq (t := writeFailed s i left timers) requests rfl data
    obtain ⟨texts, glyphs, config⟩ := setBank_tables s.flash i left
    refine ⟨_, news, run.trans (congrArg _ failed), rfl, rfl, rfl, rfl, setBank_other .., texts, glyphs, config, rfl, rfl, rfl,
      rfl, rfl, rfl, rfl, rfl, rfl, rfl⟩
  rcases kinds with ⟨d, rfl, rfl, closed, rfl, rfl⟩ | ⟨d, rfl, rfl, closed, rfl, rfl⟩ |
    ⟨ts, u, rfl, rfl, active, rfl, rfl, rfl⟩ | ⟨d, n, k, m, u, rfl, rfl, active, rfl, rfl, rfl⟩
  · refine ⟨Config.bankLeft s.freeCount, ?_⟩
    simp only [exec, execBankEraseEnd, write, Bool.false_eq_true, if_false, writeFailed, ← setBank_closed closed]
    rfl
  · refine ⟨{ s.flash.bank i with header := Config.headerLeft s.freeCount }, ?_⟩
    simp only [exec, execFillingHeaderWriteEnd, write, Bool.false_eq_true, if_false, writeFailed, ← setBank_closed closed]
    rfl
  · refine ⟨{ s.flash.bank u.target with trips := Config.tripsLeft s.freeCount }, ?_⟩
    simp only [exec, execTripBlockWriteEnd, write, active, Bool.false_eq_true, if_false]
    rw [abortUpload_eq (u := u) (by exact active), blockData_closed (by rfl)]
    rfl
  · refine ⟨{ s.flash.bank u.target with header := Config.headerLeft s.freeCount }, ?_⟩
    simp only [exec, execCommitHeaderWriteEnd, write, Bool.false_eq_true, if_false]
    rw [abortUpload_eq (u := u) (by exact active)]
    rfl

/-! ### TRIP_BLOCK (R35, R36) -/

section Reading

variable (p q : List Byte)

theorem u8_append_right (i : Nat) : u8 (p ++ q) (p.length + i) = u8 q i := by
  rw [u8, u8, List.getD_append_right _ _ _ _ (Nat.le_add_right ..), Nat.add_sub_cancel_left]

theorem u16_append_right (i : Nat) : u16 (p ++ q) (p.length + i) = u16 q i := by
  simp only [u16, Nat.add_assoc, u8_append_right]

end Reading

/-- The fields of a trip record fit their bytes (R35). -/
def FitsBytes (x : Trip) : Prop :=
  x.route < 65536 ∧ x.trip < 65536 ∧ x.minute < 65536 ∧ x.dest < 256 ∧ x.platform < 256

theorem tripAt_bytes {x : Trip} (fits : FitsBytes x) (p q : List Byte) : tripAt (p ++ (x.bytes ++ q)) p.length = x := by
  obtain ⟨a, b, c, d, e⟩ := x
  obtain ⟨route, trip, minute, dest, platform⟩ := fits
  dsimp only at route trip minute dest platform
  have first := u16_append_right p ((Trip.mk a b c d e).bytes ++ q) 0
  rw [Nat.add_zero] at first
  simp only [tripAt, first, u16_append_right, u8_append_right, Trip.mk.injEq]
  simp only [u16, u8, Trip.bytes, b16, b8, List.cons_append, List.nil_append, List.getD_cons_zero, List.getD_cons_succ,
    BitVec.toNat_ofNat]
  omega

/-- The records of a block are read back from its bytes (R35). -/
theorem tripsAt_bytes {ts : List Trip} (fits : ∀ x ∈ ts, FitsBytes x) (p : List Byte) :
    tripsAt (p ++ ts.flatMap Trip.bytes) ts.length p.length = ts := by
  induction ts generalizing p with
  | nil => rfl
  | cons x ts ih =>
    have head := tripAt_bytes (fits x List.mem_cons_self) p (ts.flatMap Trip.bytes)
    have tail := ih (fun y hy => fits y (List.mem_cons_of_mem x hy)) (p ++ x.bytes)
    rw [List.append_assoc, List.length_append] at tail
    rw [List.flatMap_cons, List.length_cons, tripsAt, head]
    exact congrArg (x :: ·) tail

theorem flatMap_bytes_length (ts : List Trip) : (ts.flatMap Trip.bytes).length = 8 * ts.length := by
  induction ts with
  | nil => rfl
  | cons x ts ih =>
    have one : x.bytes.length = 8 := rfl
    rw [List.flatMap_cons, List.length_append, ih, one, List.length_cons]
    omega

/-- Minutes do not fall from a last minute on (R35). -/
theorem minutesRise_iff (last : Option Nat) (ts : List Trip) : minutesRise last ts = true ↔
    (∀ x, last = some x → ∀ y ∈ ts, x ≤ y.minute) ∧ ts.Pairwise fun x y => x.minute ≤ y.minute := by
  induction ts generalizing last with
  | nil => simp [minutesRise]
  | cons t ts ih =>
    cases last with
    | none => simp [minutesRise, ih]
    | some m =>
      simp only [minutesRise, Bool.and_eq_true, ih, List.pairwise_cons, decide_eq_true_eq, Option.some.injEq,
        forall_eq', List.mem_cons, forall_eq_or_imp]
      exact ⟨fun ⟨first, later, sorted⟩ => ⟨⟨first, fun y hy => first.trans (later y hy)⟩, later, sorted⟩,
        fun ⟨⟨first, _⟩, later, sorted⟩ => ⟨first, later, sorted⟩⟩

/-- No key of a block stands twice in it, nor among the records held (R35). -/
theorem keysFresh_iff (held ts : List Trip) : keysFresh held ts = true ↔
    (ts.map Trip.key).Nodup ∧ ∀ x ∈ ts, ∀ y ∈ held, x.key ≠ y.key := by
  induction ts with
  | nil => simp [keysFresh]
  | cons t ts ih =>
    simp only [keysFresh, Bool.and_eq_true, ih, Bool.not_eq_true', List.any_eq_false, beq_iff_eq, List.map_cons,
      List.nodup_cons, List.mem_map, List.mem_cons, forall_eq_or_imp, not_exists, not_and]
    constructor
    · rintro ⟨⟨fresh, single⟩, distinct, others⟩
      exact ⟨⟨single, distinct⟩, fun y hy e => fresh y hy e.symm, others⟩
    · rintro ⟨⟨single, distinct⟩, fresh, others⟩
      exact ⟨⟨fun y hy e => fresh y hy e.symm, single⟩, distinct, others⟩

section Block

variable {s : State} {r : Request} {rest : List Request} {number : Byte} {ts : List Trip}

/-- A taken TRIP_BLOCK, its records read back (R35, R186). -/
theorem exec_tripBlock_of_headIs (h : s.headIs r rest) (hk : r.kind = 0x07) (nonempty : 1 ≤ ts.length) (room : ts.length ≤ 16)
    (fits : ∀ x ∈ ts, FitsBytes x) (hp : r.payload = number :: ts.flatMap Trip.bytes) :
    exec .tripBlock s = .next (
      match s.touchUpload.store.upload with
      | none => s.touchUpload.reply .noUpload s.touchUpload.store.blockData
      | some u =>
        match blockFault u (s.touchUpload.flash.bank u.target).trips number.toNat ts with
        | some e => s.touchUpload.reply e s.touchUpload.store.blockData
        | none => s.touchUpload.startWrite (.tripBlock ts)) := by
  have length : (number :: ts.flatMap Trip.bytes).length = 8 * ts.length + 1 := by
    rw [List.length_cons, flatMap_bytes_length]
  have allowed : lengthAllowed 0x07 (number :: ts.flatMap Trip.bytes).length = true := by
    simp only [length, lengthAllowed, Bool.and_eq_true, beq_iff_eq, decide_eq_true_eq]
    omega
  have records : tripsAt (number :: ts.flatMap Trip.bytes) (((number :: ts.flatMap Trip.bytes).length - 1) / 8) 1 = ts := by
    rw [length, show (8 * ts.length + 1 - 1) / 8 = ts.length by omega]
    exact tripsAt_bytes fits [number]
  have work := take_eq (f := fun p s =>
    let t := s.touchUpload
    match t.store.upload with
    | none => t.reply .noUpload t.store.blockData
    | some u =>
      match blockFault u (t.flash.bank u.target).trips (u8 p 0) (tripsAt p ((p.length - 1) / 8) 1) with
      | some e => t.reply e t.store.blockData
      | none => t.startWrite (.tripBlock (tripsAt p ((p.length - 1) / 8) 1))) h (by rw [hk]; rfl) hp allowed
  rw [records] at work
  exact congrArg Host.Outcome.next work

end Block

/-- The end of a block's write counts it, and goes on with its last minute and the check (R36, R37). -/
theorem after_eq (u : Upload) (ts : List Trip) (last : Trip) : u.after (ts ++ [last]) = { u with
    trips := u.trips + ts.length + 1
    expected := if u.expected = 74 then 0 else u.expected + 1
    lastMinute := some last.minute
    check := crc16From u.check ((ts ++ [last]).flatMap Trip.bytes) } := by
  simp [Upload.after, tripCheck, Nat.add_assoc]

/-- Settles O48: the tests in their order, the write, and its end. -/
theorem tripBlockIsTestedAndWritten : Obligations.TripBlockIsTestedAndWritten := by
  refine ⟨fun s r rest number ts h hk nonempty room fits hp => ?block, fun s r rest ts u last writing active => ?written⟩
  case block =>
    have run := exec_tripBlock_of_headIs h hk nonempty room fits hp
    refine ⟨fun closed => ?_, fun u active => ?_⟩
    · rw [run, touchUpload_closed closed]
      simp only [closed]
      rw [reply_eq h (by rfl), blockData_closed closed]
      rfl
    · rw [touchUpload_open active] at run
      simp only [active] at run
      intro touched data
      have refused (e : Result) (fault : blockFault u (s.flash.bank u.target).trips number.toNat ts = some e) :
          exec .tripBlock s = .next { touched with link := s.link.answered r rest e.code s.faults.newsFlag data } := by
        rw [run, fault]
        dsimp only
        rw [reply_eq h (by rfl), Store.blockData, Store.expected, Store.tripsSoFar, active]
        rfl
      refine ⟨fun order => refused .sequence ?_, fun order range => refused .range ?_, ?_⟩
      · simp [blockFault, order]
      · simp [blockFault, order, range]
      · intro rises fresh
        have minutes : minutesRise u.lastMinute ts = true ↔ rises := minutesRise_iff ..
        have keys : keysFresh (s.flash.bank u.target).trips ts = true ↔ fresh := keysFresh_iff ..
        refine ⟨fun order range falls => refused .order ?_, fun order range rising stale => refused .duplicate ?_,
          fun order range rising unused beyond => refused .full ?_, fun order range rising unused fitting => ?_⟩
        · simp [blockFault, order, range, mt minutes.mp falls]
        · simp [blockFault, order, range, minutes.mpr rising, mt keys.mp stale]
        · simp [blockFault, order, range, minutes.mpr rising, keys.mpr unused, beyond]
        · have passes : blockFault u (s.flash.bank u.target).trips number.toNat ts = none := by
            simp [blockFault, order, range, minutes.mpr rising, keys.mpr unused, fitting]
          rw [run, passes]
          rfl
  case written =>
    obtain ⟨write, requests⟩ := writing
    intro expected trips
    simp only [exec, execTripBlockWriteEnd, write, active, if_true, after_eq]
    rw [reply_answered (r := r) (rest := rest) (by exact requests), ← List.append_assoc]
    rfl

/-! ### UPLOAD_COMMIT (R38) -/

/-- The number of a commit follows the other bank's, or is 1 (R29). -/
theorem commitNumber_eq (f : Flash) (i : BankId) : commitNumber f i =
    match (match i with | .a => f.bankB | .b => f.bankA).header with
    | .good (.valid _ _ _ m) => (m + 1) % 65536
    | _ => 1 := by
  cases i <;> rfl

/-- The store after a selection against the clock's date; while UNSET none runs (R31, R32). -/
def selected (s : State) : Store :=
  match s.clock.time with
  | none => s.store
  | some u => s.store.select u.date

/-- A selection changes the Timetable Store and the fault records alone (R32). -/
theorem selectBanks_eq (s : State) : ∃ faults, s.selectBanks = { s with store := selected s, faults := faults } ∧
    faults.cause = s.faults.cause := by
  cases time : s.clock.time with
  | none =>
    simp only [State.selectBanks, selected, time]
    exact ⟨_, rfl, rfl⟩
  | some u =>
    simp only [State.selectBanks, selected, time]
    split
    · exact ⟨_, rfl, rfl⟩
    · exact ⟨_, rfl, rfl⟩

section AfterCommit

variable {s : State} {r : Request} {rest : List Request}

/-- What follows a commit: the board stays where CURRENT stays, and else it is rebuilt on the new roles (R33, R38). -/
theorem afterCommit_settled (requests : s.link.requests = r :: rest) (waiting : s.attemptWaiting = false)
    (before : Option BankId) (data : List Byte) :
    ∃ (news : Bool) (board : Board),
      PanelWork { s with store := selected s, board := board, link := s.link.answered r rest 0 news data }
        (s.afterCommit before fun t => t.reply .ok data).settle ∧
      ((selected s).holder .current = before → board = s.board) ∧
      ((selected s).holder .current ≠ before → board = (State.rebuild { s with store := selected s }).board) := by
  obtain ⟨faults, chosen, cause⟩ := selectBanks_eq s
  unfold State.afterCommit
  rw [chosen]
  dsimp only
  by_cases same : (selected s).holder .current = before
  · rw [if_pos same, reply_answered (r := r) (rest := rest) (by exact requests), settle_of_not_waiting (by exact waiting)]
    refine ⟨faults.newsFlag, s.board, ?_, fun _ => rfl, fun other => absurd same other⟩
    constructor <;> first | rfl | exact cause
  · rw [if_neg same]
    generalize built : State.rebuild { s with store := selected s, faults := faults } = b
    have work : BoardWork { s with store := selected s, faults := faults } b := built ▸ rebuild_boardWork _
    have board : b.board = (State.rebuild { s with store := selected s }).board := by
      rw [← built]
      exact Refill.rebuild_board_alike (by rfl) (by rfl) (by rfl) (by rfl)
    have requests' : b.link.requests = r :: rest := by rw [work.others]; exact requests
    obtain ⟨news, done⟩ := NoticeRequests.eitherOrder_reply_panelWork requests' .ok data
      (fun u => recompose_panelWork u rowBands)
    refine ⟨news, b.board, PanelWork.trans ?_ (done.trans (settle_panelWork _)), fun other => absurd other same,
      fun _ => board⟩
    have cause' : b.faults.cause = s.faults.cause := work.cause.trans cause
    rw [work.others]
    constructor <;> first | rfl | exact cause'

end AfterCommit

/-- Settles O49: the refusals and the header write of a commit, and the selection and rebuild at its end. -/
theorem uploadCommitMakesTheBankValid : Obligations.UploadCommitMakesTheBankValid := by
  refine ⟨fun s r rest h hk length closed => ?closed, fun s r rest c1 c0 k1 k0 u h hk hp active => ?tested,
    fun s i date count commit check r rest writing waiting => ?written⟩
  case closed =>
    have work := take_work h (kind := 0x08) (by rw [hk]; rfl) (by rw [length]; rfl)
    simp only [exec, execUploadCommit, work, touchUpload_closed closed, closed]
    rw [reply_eq h (by rfl)]
    rfl
  case tested =>
    intro touched agrees other number
    have work := take_eq h (kind := 0x08) (by rw [hk]; rfl) hp rfl
    simp only [exec, execUploadCommit, work, touchUpload_open active, active]
    refine ⟨fun differs => ?_, fun agree => ?_⟩
    · rw [if_neg (by exact differs), reply_eq h (by rfl)]
      rfl
    · rw [if_pos (by exact agree), commitNumber_eq]
      rfl
  case written =>
    intro valid
    obtain ⟨write, requests⟩ := writing
    obtain ⟨news, board, work, stays, changes⟩ := afterCommit_settled (s := s.commitBank i date count check commit) requests
      waiting (s.store.holder .current) (b16 count ++ b16 check.toNat)
    refine ⟨_, news, board, ?_, work, ?_, ?_⟩
    · simp only [exec, execCommitHeaderWriteEnd, write, if_true]
    · rw [work.store]
      exact stays
    · rw [work.store, work.flash]
      intro other
      rw [changes other]
      exact ⟨Refill.rebuild_board_alike (by rfl) (by rfl) (by rfl) (by rfl), Refill.rebuildFrom_gone _ _⟩

end Sys2Proof.Uploads
end

section
/-! PROOFS. The rounds of time (01 R10 to R14, R23; 04 R60, R65, R66; 07 R110 to R113): second events and the rollover, the sweep,
and the rotation of the notices. -/

namespace Sys2Proof.Rounds

open Sys2Proof.Machine Sys2Proof.BoardInvariants

/-! ### The rotation (R113) -/

/-- The notice that follows the one shown (R113). -/
theorem followId_next {before after : List Notice} {a b : Notice} (first : ∀ x ∈ before, x.id ≠ a.id) :
    followId (before ++ a :: b :: after) (some a.id) = some b.id := by
  have skipped : (before ++ a :: b :: after).dropWhile (fun n => some n.id != some a.id) = a :: b :: after := by
    rw [List.dropWhile_append_of_pos fun x hx => by simpa using first x hx]
    simp
  rw [followId, skipped]
  rfl

/-- From the last notice the rotation goes to the first (R113). -/
theorem followId_last {a z : Notice} {middle : List Notice} (first : ∀ x ∈ a :: middle, x.id ≠ z.id) :
    followId (a :: middle ++ [z]) (some z.id) = some a.id := by
  have skipped : (a :: middle ++ [z]).dropWhile (fun n => some n.id != some z.id) = [z] := by
    rw [List.dropWhile_append_of_pos fun x hx => by simpa using first x hx]
    simp
  rw [followId, skipped]
  rfl

section Rotation

variable {s : State}

/-- A due rotation outside conserve, over two notices or more, moves the position and recomposes the notice band (R113). -/
theorem exec_rotation_moves (due : s.timers.rotation.due = true) (conserve : s.energy.conserve = false)
    (several : 2 ≤ (topSet s.notices.list).length) {position : Option Nat}
    (follows : followId (topSet s.notices.list) s.notices.position = position) :
    ∃ t, exec .rotation s = .next t ∧ PanelWork { s with
      notices := { s.notices with position := position }
      timers := { s.timers with rotation := s.timers.rotation.expire } } t := by
  refine ⟨_, ?_, (recompose_panelWork _ noticeBand).trans (settle_panelWork _)⟩
  simp only [exec, execRotation, due, conserve, several, follows, decide_true, Bool.not_false, Bool.and_self, if_true]

theorem exec_rotation_stays (due : s.timers.rotation.due = true)
    (still : s.energy.conserve = true ∨ (topSet s.notices.list).length ≤ 1) :
    exec .rotation s = .next { s with timers := { s.timers with rotation := s.timers.rotation.expire } } := by
  have stays : ¬(decide (2 ≤ (topSet s.notices.list).length) && !s.energy.conserve) = true := by
    rcases still with conserve | few
    · simp [conserve]
    · simp [show ¬2 ≤ (topSet s.notices.list).length by omega]
  simp only [exec, execRotation, due, if_true, if_neg stays]

end Rotation

/-- A timer that is stopped, or whose count has not reached zero, is not due (R67). -/
theorem due_eq_false {t : Timer} (h : t.running = false ∨ t.remaining ≠ 0) : t.due = false := by
  rw [← Bool.not_eq_true, Timer.due_iff]
  rintro ⟨running, zero⟩
  simp [running, zero] at h

/-- Settles O46: the next notice, the first after the last, and the expiries that move nothing. -/
theorem rotationAdvancesThePosition : Obligations.RotationAdvancesThePosition := by
  refine ⟨fun s running zero _ => ?due, fun s notDue => ?notDue⟩
  case due =>
    have due : s.timers.rotation.due = true := (Timer.due_iff _).mpr ⟨running, zero⟩
    refine ⟨exec_rotation_stays due, fun before after a b conserve top position first => ?_,
      fun middle a z conserve top position first => ?_⟩
    · exact exec_rotation_moves due conserve (by simp only [top, List.length_append, List.length_cons]; omega)
        (by rw [top, position]; exact followId_next first)
    · exact exec_rotation_moves due conserve (by rw [top]; simp) (by rw [top, position]; exact followId_last first)
  case notDue => simp [exec, execRotation, due_eq_false notDue]

/-! ### The sweep (R12 to R14, R110) -/

/-- A stale prediction lapses, or takes its EXTRA entry off the board (R12). -/
theorem lapseEntry_eq (now stale : Int) (e : Entry) : lapseEntry now stale e =
    if e.state = .live ∧ (e.pred.any fun p => decide (stale < now - p.stamp)) = true then
      (if e.origin = .extra then none else some { e with pred := none, state := .lapsed })
    else some e := by
  unfold lapseEntry
  cases e.state <;> cases e.pred <;> simp

/-- An entry that the first stage leaves is one of the board, its prediction perhaps dropped (R12). -/
theorem lapseEntry_origin {now stale : Int} {a e : Entry} (h : lapseEntry now stale a = some e) :
    a.key = e.key ∧ a.origin = e.origin ∧ a.sched = e.sched ∧
      ∀ p, e.state = .live → e.pred = some p → now - p.stamp ≤ stale := by
  rw [lapseEntry_eq] at h
  split at h
  · split at h
    · cases h
    · cases h
      exact ⟨rfl, rfl, rfl, fun p live => by cases live⟩
  · next fresh =>
    cases h
    refine ⟨rfl, rfl, rfl, fun p live pred => ?_⟩
    simp only [live, pred, Option.any_some, decide_eq_true_eq, true_and] at fresh
    omega

/-- The records of departures do not depend on the order in which the entries leave. -/
theorem gone_of_perm {old new : List Gone} {l m : List Entry} {low grace : Int} (h : GoneJoined old l low grace new)
    (perm : l.Perm m) : GoneJoined old m low grace new := by
  obtain ⟨joined, same, e⟩ := h
  exact ⟨joined, same.trans (perm.filterMap _), e⟩

/-- The entries that the second stage keeps, and those whose departure it records (R13). -/
theorem passed_iff (e : Entry) (now grace : Int) : e.passed now grace = decide (e.effective < now - grace) := rfl

theorem not_passed_eq (now grace : Int) :
    (fun e : Entry => !e.passed now grace) = fun e => decide (now - grace ≤ e.effective) := by
  funext e
  rw [passed_iff, ← decide_not]
  exact decide_eq_decide.mpr (by omega)

/-- The second stage of a sweep on entries in any order: what stays and what the gone list becomes (R7, R13). -/
theorem sweepPassed_spec (b : Board) {l : List Entry} (perm : b.entries.Perm l) (now grace : Int) :
    (b.sweepPassed now grace).entries.Perm (l.filter fun e => decide (now - grace ≤ e.effective)) ∧
      (b.gone.length ≤ 32 → GoneJoined b.gone (l.filter fun e => decide (e.effective < now - grace)) (now - grace) grace
        (b.sweepPassed now grace).gone) := by
  refine ⟨?_, fun room => gone_of_perm (foldl_departGone now grace _ b.gone room) (perm.filter _)⟩
  rw [← not_passed_eq]
  exact perm.filter _

/-- The notices that a sweep takes off are those whose end has come (R110). -/
theorem expired_iff (n : Notice) (date second : Nat) : n.expired date second = false ↔
    ∀ e, n.ends = some e → e.date = date ∧ second < e.second := by
  unfold Notice.expired
  cases n.ends with
  | none => simp
  | some e => simp

/-- The expiry of the notices decides the list afresh, and what else it does is work towards the panel (R110 to R112). -/
theorem expireNotices_work {s : State} {u : ClockTime} (time : s.clock.time = some u) :
    ∃ (notices : Notices) (rotation : Timer),
      PanelWork { s with notices := notices, timers := { s.timers with rotation := rotation } } s.expireNotices ∧
      notices.list = s.notices.list.filter (fun n => !n.expired u.date u.second) ∧
      NoticesDecided s.notices notices s.timers.rotation rotation := by
  obtain ⟨frame, list, decided⟩ := decideNotices_decided s (s.notices.list.filter fun n => !n.expired u.date u.second)
  refine ⟨_, _, ?_, list, decided⟩
  simp only [State.expireNotices, time]
  rw [← frame]
  exact NoticeRequests.recomposeIf_panelWork _ _ noticeBand

theorem exec_sweep_of_due {s : State} (due : s.timers.sweep.due = true) :
    exec .sweep s = .next (State.settle (State.expireNotices
      ((State.sweepBoard { s with timers := { s.timers with sweep := s.timers.sweep.expire } }).recompose rowBands))) := by
  simp only [exec, execSweep, due, if_true]

/-- Work towards the panel behind a change of the notices and of the rotation timer. -/
theorem panelWork_withNotices {s t : State} (h : PanelWork s t) (n : Notices) (rotation : Timer) :
    PanelWork { s with notices := n, timers := { s.timers with rotation := rotation } }
      { t with notices := n, timers := { t.timers with rotation := rotation } } :=
  { h with notices := rfl, timers := by rw [h.timers] }

/-- Settles O41: the three stages of the board's sweep, and the expiry of the notices. -/
theorem sweepAgesBoardAndNotices : Obligations.SweepAgesBoardAndNotices := by
  refine ⟨fun s u running zero waiting time => ?due, fun s running zero waiting unset => ?unset, fun s notDue => ?notDue⟩
  case due =>
    intro low aged
    have due : s.timers.sweep.due = true := (Timer.due_iff _).mpr ⟨running, zero⟩
    have now : s.now = u.second := by rw [State.now, time]; rfl
    have same : s.board.entries.filterMap (lapseEntry u.second s.cfg.stale) = aged :=
      List.filterMap_congr fun e _ => lapseEntry_eq ..
    have swept : State.sweepBoard { s with timers := { s.timers with sweep := s.timers.sweep.expire } } =
        { s with
          board := s.board.sweep u.second s.cfg.grace s.cfg.stale
          timers := { s.timers with sweep := s.timers.sweep.expire } } := by
      have run : s.clockRunning = true := by rw [State.clockRunning, time]; rfl
      rw [← now]
      exact if_pos run
    have recomposed := recompose_panelWork (State.sweepBoard { s with
      timers := { s.timers with sweep := s.timers.sweep.expire } }) rowBands
    have run := exec_sweep_of_due due
    generalize State.recompose _ rowBands = c at recomposed run
    rw [swept] at recomposed
    obtain ⟨notices, rotation, work, list, decided⟩ := expireNotices_work (u := u) (recomposed.clock ▸ time)
    obtain ⟨kept, gone⟩ := sweepPassed_spec (s.board.sweepStale u.second s.cfg.stale) (sortEntries_perm _) u.second s.cfg.grace
    have mem {e : Entry} (he : e ∈ (s.board.sweep u.second s.cfg.grace s.cfg.stale).entries) :
        e ∈ aged ∧ low ≤ e.effective := by
      obtain ⟨there, late⟩ := List.mem_filter.mp (kept.mem_iff.mp he)
      exact ⟨same ▸ there, of_decide_eq_true late⟩
    have origin {e : Entry} (he : e ∈ (s.board.sweep u.second s.cfg.grace s.cfg.stale).entries) :
        ∃ a ∈ s.board.entries, lapseEntry u.second s.cfg.stale a = some e :=
      List.mem_filterMap.mp (same ▸ (mem he).1)
    rw [same] at kept gone
    refine ⟨_, _, _, notices, rotation, run,
      (panelWork_withNotices recomposed notices rotation).trans (work.trans (settle_panelWork _)), kept, gone, rfl, ?_,
      fun e he => ⟨(mem he).2, ?_⟩, fun e he p live pred => ?_, fun g hg => ?_, fun n => ?_⟩
    · rw [recomposed.notices, recomposed.timers] at decided
      exact decided
    · obtain ⟨a, there, lapsed⟩ := origin he
      obtain ⟨key, same, sched, -⟩ := lapseEntry_origin lapsed
      exact ⟨a, there, key, same, sched⟩
    · obtain ⟨a, -, lapsed⟩ := origin he
      exact (lapseEntry_origin lapsed).2.2.2 p live pred
    · exact of_decide_eq_true (List.mem_filter.mp hg).2
    · rw [list, recomposed.notices, List.mem_filter, Bool.not_eq_true', expired_iff]
  case unset =>
    have due : s.timers.sweep.due = true := (Timer.due_iff _).mpr ⟨running, zero⟩
    have stopped : ¬s.clockRunning = true := by rw [State.clockRunning, unset]; exact Bool.false_ne_true
    have still : State.sweepBoard { s with timers := { s.timers with sweep := s.timers.sweep.expire } } =
        { s with timers := { s.timers with sweep := s.timers.sweep.expire } } := if_neg stopped
    have recomposed := recompose_panelWork (State.sweepBoard { s with
      timers := { s.timers with sweep := s.timers.sweep.expire } }) rowBands
    have run := exec_sweep_of_due due
    generalize State.recompose _ rowBands = c at recomposed run
    rw [still] at recomposed
    have stays : c.expireNotices = c := by rw [State.expireNotices, recomposed.clock, unset]
    exact ⟨_, run, recomposed.trans (by rw [stays]; exact settle_panelWork c)⟩
  case notDue => simp [exec, execSweep, due_eq_false notDue]

/-! ### The minute tick (R64, R65, R127, R146) -/

/-- The energy after the frontlight matches of a wall minute (R146, R147). -/
def litAt (c : ConfigRecord) (w : Nat) (e : Energy) : Energy :=
  if w = c.param 41 then { e with window := false, duty := 0 }
  else if w = c.param 40 then { e with window := true, duty := c.duty true e.conserve }
  else e

theorem frontlightMatch_eq (s : State) (w : Nat) : s.frontlightMatch w = { s with energy := litAt s.cfg w s.energy } := by
  unfold State.frontlightMatch litAt
  split
  · rfl
  · split <;> rfl

/-- The matches set the window and the duty alone, and read no more of the energy than the conserve state. -/
theorem litAt_of_estimate (c : ConfigRecord) (w : Nat) (e : Energy) (estimate : Nat) :
    litAt c w { e with estimate := estimate } = { litAt c w e with estimate := estimate } := by
  unfold litAt
  split
  · rfl
  · split <;> rfl

theorem litAt_eq (c : ConfigRecord) (w : Nat) (e : Energy) :
    litAt c w e = { e with window := (litAt c w e).window, duty := (litAt c w e).duty } := by
  unfold litAt
  split
  · rfl
  · split <;> rfl

theorem litAt_estimate (c : ConfigRecord) (w : Nat) (e : Energy) : (litAt c w e).estimate = e.estimate := by
  rw [litAt_eq]

/-- Work towards the panel, with the frontlight matches behind it. -/
theorem panelWork_withLight {s t : State} (h : PanelWork s t) (c : ConfigRecord) (w : Nat) :
    PanelWork { s with energy := litAt c w s.energy } { t with energy := litAt c w t.energy } :=
  { h with
    energy := by
      dsimp only
      rw [h.energy, litAt_of_estimate] }

theorem dailyClean_panelWork (s : State) (w : Nat) : PanelWork s (s.dailyClean w) := by
  unfold State.dailyClean
  split
  · exact queueFullClean_panelWork s
  · exact .refl s

/-- At P18 the full clean is queued (R65, R127). -/
theorem queueFullClean_hasClean (s : State) : s.queueFullClean.tiles.hasClean = true := by
  have queued : (s.setTiles s.tiles.queueClean.1).tiles.hasClean = true := queueClean_hasClean s.tiles
  unfold State.queueFullClean
  split
  · unfold State.noteAttempt
    have scheduled (u : State) : u.choose.2.tiles = u.tiles := by unfold State.choose; split <;> rfl
    split
    · exact StartUpEnd.attempt_hasClean (by rw [scheduled]; exact queued)
    · exact (congrArg TileMap.hasClean (scheduled _)).trans queued
  · next standing =>
    by_contra none
    exact standing (by simp [TileMap.queueClean, none])

theorem settle_hasClean {s : State} (h : s.tiles.hasClean = true) : s.settle.tiles.hasClean = true := by
  unfold State.settle
  split
  · exact StartUpEnd.attempt_hasClean h
  · exact h

/-- The state of a minute before the frontlight matches: the refill recomposed, and the clean of P18 (R64, R65). -/
def minuteCleaned (s : State) (w : Nat) : State := (s.refill.1.recompose tickBands).dailyClean w

theorem minuteCleaned_work (s : State) (w : Nat) : PanelWork { s with board := s.refill.1.board } (minuteCleaned s w) := by
  have refilled : PanelWork { s with board := s.refill.1.board } s.refill.1 := by
    obtain ⟨others, cause⟩ := refill_boardWork s
    rw [others]
    constructor <;> first | rfl | exact cause
  exact refilled.trans ((recompose_panelWork _ tickBands).trans (dailyClean_panelWork _ w))

/-- Everything a minute tick does at the end of a step (R64, R65, R127, R146). -/
theorem minuteTick_settled (s : State) (w : Nat) :
    s.minuteTick w = { minuteCleaned s w with energy := litAt s.cfg w (minuteCleaned s w).energy } ∧
    PanelWork { s with board := s.refill.1.board, energy := litAt s.cfg w s.energy } (s.minuteTick w).settle ∧
    (w = s.cfg.param 18 → (s.minuteTick w).settle.tiles.hasClean = true) := by
  have work := minuteCleaned_work s w
  have ticked : s.minuteTick w = { minuteCleaned s w with energy := litAt s.cfg w (minuteCleaned s w).energy } := by
    have cfg : (minuteCleaned s w).cfg = s.cfg := work.cfg
    rw [← cfg, ← frontlightMatch_eq]
    rfl
  have light := panelWork_withLight work s.cfg w
  refine ⟨ticked, ?_, fun daily => ?_⟩
  · rw [ticked]
    exact light.trans (settle_panelWork _)
  · refine settle_hasClean ?_
    have cfg : (s.refill.1.recompose tickBands).cfg = s.cfg := by
      rw [(recompose_panelWork _ tickBands).cfg, (refill_boardWork s).others]
    have clean : minuteCleaned s w = (s.refill.1.recompose tickBands).queueFullClean := by
      rw [minuteCleaned, State.dailyClean, cfg, if_pos daily]
    rw [ticked]
    dsimp only
    rw [clean]
    exact queueFullClean_hasClean _

/-! ### The second event (R60) -/

theorem exec_secondEvent_of_running {s : State} {u : ClockTime} (time : s.clock.time = some u) :
    exec .secondEvent s = .next (s.secondEvent u).settle := by
  simp only [exec, execSecondEvent, time]

/-- What a refill offers are the trips of the banks that hold the roles (R10). -/
theorem mem_offers (s : State) (x : Role) (p : Trip) : (x, p) ∈ Refill.offers s s.store.roles ↔ p ∈ s.roleTrips x := by
  cases x <;> simp [Refill.offers, State.roleTrips, Store.roles]

/-- A trip is wanted in the window, on a shown platform, and when its key is not gone (R10). -/
theorem wanted_iff {s : State} {u : ClockTime} (time : s.clock.time = some u) (x : Role) (p : Trip) :
    Refill.wanted s (x, p) = true ↔
      (u.second : Int) - s.cfg.param 7 ≤ p.sched x ∧ p.sched x ≤ (u.second : Int) + s.cfg.param 6 * 60 ∧
        (s.cfg.param 4).testBit p.platform = true ∧ s.board.isGone p.key = false := by
  have now : s.now = u.second := by rw [State.now, time]; rfl
  simp only [Refill.wanted, State.inWindow, now, ConfigRecord.grace, ConfigRecord.horizon, ConfigRecord.shows,
    Bool.and_eq_true, decide_eq_true_eq, Bool.not_eq_true', and_assoc]

theorem refill_eq {s : State} {u : ClockTime} (time : s.clock.time = some u) :
    s.refill = (Refill.offers s s.store.roles).foldl Refill.offer (s, false) :=
  Refill.refillFrom_eq (by rw [State.clockRunning, time]; rfl) _

theorem offers_length (s : State) :
    (Refill.offers s s.store.roles).length = (s.roleTrips .current).length + (s.roleTrips .next).length := by
  simp [Refill.offers, State.roleTrips, Store.roles]

/-- Settles O38: the second, the minute's work, and what a refill adds and keeps. -/
theorem secondEventAdvancesTheClock : Obligations.SecondEventAdvancesTheClock := by
  refine ⟨fun s waiting => ⟨fun unset => ?unset, fun u time notLast => ?second⟩, fun s u time => ?refill⟩
  case unset => simp only [exec, execSecondEvent, unset]
  case second =>
    intro ticked
    have tick : u.tick = { u with second := u.second + 1 } := if_neg notLast
    have run := exec_secondEvent_of_running time
    have event : s.secondEvent u =
        if (u.second + 1) % 60 = 0 then ticked.minuteTick ((u.second + 1 + 60 * u.dayStart) % 86400 / 60) else ticked := by
      simp only [State.secondEvent, tick, if_neg notLast]
      rfl
    refine ⟨fun between => ?_, fun minute => ?_⟩
    · rw [run, event, if_neg between, settle_of_not_waiting (by exact waiting)]
    · rw [if_pos minute] at event
      intro w energy cleaned
      obtain ⟨eq, work, clean⟩ := minuteTick_settled ticked w
      rw [event] at run
      refine ⟨_, run, work, ?_, clean⟩
      have same : minuteCleaned ticked w = cleaned := by
        have cfg : (ticked.refill.1.recompose tickBands).cfg = s.cfg := by
          rw [(recompose_panelWork _ tickBands).cfg, (refill_boardWork ticked).others]
        rw [minuteCleaned, State.dailyClean, cfg]
      have energy_eq : litAt ticked.cfg w cleaned.energy =
          { cleaned.energy with window := energy.window, duty := energy.duty } := by
        have before : cleaned.energy = { s.energy with estimate := cleaned.energy.estimate } := by
          rw [← same]
          exact (minuteCleaned_work ticked w).energy
        rw [before, litAt_of_estimate]
        exact congrArg (fun e : Energy => { e with estimate := cleaned.energy.estimate }) (litAt_eq ticked.cfg w s.energy)
      exact congrArg State.settle (by rw [eq, same, energy_eq])
  case refill =>
    intro low high offered r
    obtain ⟨-, gone, entries⟩ := Refill.offers_spec (Refill.offers s s.store.roles) (s, false)
    have offer_iff (x : Role) (p : Trip) : offered x p ↔
        (x, p) ∈ Refill.offers s s.store.roles ∧ Refill.wanted s (x, p) = true := by
      rw [mem_offers, wanted_iff time]
    rw [← refill_eq time] at gone entries
    refine ⟨gone, fun e he => (entries e he).imp_right ?_, fun room => ?_⟩
    · rintro ⟨⟨x, p⟩, there, want, rfl⟩
      exact ⟨x, p, (offer_iff x p).mpr ⟨there, want⟩, by cases x <;> rfl⟩
    · obtain ⟨kept, fresh, added⟩ := Refill.offers_of_room (Refill.offers s s.store.roles) (a := (s, false))
        (by rw [offers_length]; dsimp only; omega)
      rw [← refill_eq time] at kept fresh added
      exact ⟨kept, fresh, fun x p h => added (x, p) ((offer_iff x p).mp h).1 ((offer_iff x p).mp h).2⟩

/-! ### The rollover (R23, R66) -/

/-- A raise takes no item off the news set (R174, R177). -/
theorem raise_keeps_news {f : FaultUnit} {b : BitVec 16} (h : f.news &&& b ≠ 0) (code : FaultCode) (stamp : Option Stamp) :
    (f.raise code stamp).news &&& b ≠ 0 := by
  unfold FaultUnit.raise
  dsimp only
  split
  · exact h
  · intro e
    rw [BitVec.and_or_distrib_right] at e
    exact h (BitVec.or_eq_zero_iff.mp e).1

/-- Nor does work that raises CONTENT faults alone. -/
theorem contentWork_keeps_news {s t : State} (work : ContentWork s t) {b : BitVec 16} (h : s.faults.news &&& b ≠ 0) :
    t.faults.news &&& b ≠ 0 := by
  obtain ⟨-, codes, -, raised⟩ := work
  rw [raised]
  clear raised
  generalize s.faults = f at h
  induction codes generalizing f with
  | nil => exact h
  | cons code codes ih => exact ih _ (raise_keeps_news h code _)

theorem queueFullClean_contentWork (s : State) : ContentWork s s.queueFullClean := by
  unfold State.queueFullClean
  split
  · exact (noteAttempt_contentWork _).from rfl rfl
  · exact .refl s

theorem minuteTick_contentWork (s : State) (w : Nat) : ContentWork s (s.minuteTick w) := by
  have daily (u : State) : ContentWork u (u.dailyClean w) := by
    unfold State.dailyClean
    split
    · exact queueFullClean_contentWork u
    · exact .refl u
  unfold State.minuteTick
  rw [frontlightMatch_eq]
  exact ((refillFrom_contentWork s _).trans ((recompose_contentWork _ tickBands).trans (daily _))).to rfl rfl

/-- The times of an entry on the new day's scale (R23). -/
theorem rebaseTime_eq (t : Int) : rebaseTime t = if t - 86400 < -120 then -120 else t - 86400 := by
  unfold rebaseTime
  split <;> omega

/-- A planned entry in the window is not below now − grace (R10, R13). -/
theorem planned_effective (o : Role × Trip) : (Refill.planned o).effective = o.2.sched o.1 := by
  unfold Refill.planned Entry.effective
  cases o.1 <;> rfl

/-- A refill adds no entry below now − grace (R10, R13). -/
theorem refill_late {s : State} {low : Int} (time : s.now - s.cfg.grace = low) (late : ∀ e ∈ s.board.entries, low ≤ e.effective) :
    ∀ e ∈ s.refill.1.board.entries, low ≤ e.effective := by
  intro e he
  unfold State.refill at he
  cases run : s.clockRunning with
  | false =>
    rw [Refill.refillFrom_unset run] at he
    exact late e he
  | true =>
    rw [Refill.refillFrom_eq run] at he
    rcases (Refill.offers_spec _ _).2.2 e he with old | ⟨o, -, want, rfl⟩
    · exact late e old
    · simp only [Refill.wanted, State.inWindow, Bool.and_eq_true, decide_eq_true_eq] at want
      rw [planned_effective, ← time]
      exact want.1.1.1

/-- The state that a rollover refills: the board re-based, and the roles of the new date (R23, R32). -/
def turned (a : State) (date : Nat) : State :=
  { a with store := a.store.select date, board := a.board.rebase a.cfg.grace }

/-- Everything a rollover does, at a clock that has turned (R23, R66). -/
theorem rollover_work {a : State} {u : ClockTime} (time : a.clock.time = some u) :
    PanelWork { turned a u.date with board := (turned a u.date).refill.1.board } a.rollover ∧
      a.rollover.faults.news &&& 0x0800 ≠ 0 := by
  refine ⟨?_, StartUpEnd.addNews_news _ .rolloverDone⟩
  obtain ⟨faults, chosen, cause⟩ := Uploads.selectBanks_eq (a.setBoard (a.board.rebase a.cfg.grace))
  have store : Uploads.selected (a.setBoard (a.board.rebase a.cfg.grace)) = a.store.select u.date := by
    unfold Uploads.selected
    rw [State.setBoard_clock, time]
    rfl
  have picked : (a.setBoard (a.board.rebase a.cfg.grace)).selectBanks = { turned a u.date with faults := faults } := by
    rw [chosen, store]
    rfl
  have refilled := refill_boardWork { turned a u.date with faults := faults }
  have board : (State.refill { turned a u.date with faults := faults }).1.board = (turned a u.date).refill.1.board :=
    (Refill.refillFrom_alike (s := turned a u.date) (t := { turned a u.date with faults := faults }) ⟨rfl, rfl, rfl⟩ rfl
      _).1.board
  have first : PanelWork { turned a u.date with board := (turned a u.date).refill.1.board }
      (State.refill { turned a u.date with faults := faults }).1 := by
    rw [refilled.others, board]
    constructor <;> first | rfl | exact refilled.cause.trans cause
  have added (t : State) (i : NewsItem) : PanelWork t (t.addNews i) := by constructor <;> rfl
  unfold State.rollover
  rw [picked]
  exact first.trans ((recompose_panelWork _ rowBands).trans (added _ _))

theorem panelWork_withBoard {s t : State} (h : PanelWork s t) (b : Board) :
    PanelWork { s with board := b } { t with board := b } := { h with board := rfl }

/-- What a re-base leaves of the board: the entries on the new day's scale that are not below −grace, the others having left as
departures behind the gone list's own re-base (R7, R23). -/
theorem rebase_spec (b : Board) (grace : Int) :
    (b.rebase grace).entries.Perm ((b.entries.map rebaseEntry).filter fun e => decide (-grace ≤ e.effective)) ∧
      (b.gone.length ≤ 32 → GoneJoined (rebaseGone b.gone)
        ((b.entries.map rebaseEntry).filter fun e => decide (e.effective < -grace)) (-grace) grace (b.rebase grace).gone) := by
  obtain ⟨kept, gone⟩ := sweepPassed_spec (Board.mk (sortEntries (b.entries.map rebaseEntry)) (rebaseGone b.gone))
    (sortEntries_perm _) 0 grace
  rw [Int.zero_sub] at kept gone
  refine ⟨kept, fun room => gone ?_⟩
  exact (List.length_filter_le _ _).trans (by rwa [List.length_map])

/-- Settles O39: the re-base, the selection and the two refills, and the matches of the minute. -/
theorem rolloverTurnsTheDay : Obligations.RolloverTurnsTheDay := by
  intro s u time last waiting low less moved w energy
  have tick : u.tick = ⟨0, (u.date + 1) % 65536, u.dayStart⟩ := if_pos last
  generalize clock : (⟨some ⟨0, (u.date + 1) % 65536, u.dayStart⟩, 0⟩ : Clock) = c at *
  have time' : State.clock { s with clock := c } = c := rfl
  have event : s.secondEvent u = (State.rollover { s with clock := c }).minuteTick w := by
    have wall : ClockTime.wallMinute ⟨0, (u.date + 1) % 65536, u.dayStart⟩ = w := by
      simp only [ClockTime.wallMinute, ClockTime.wallSecond, Nat.zero_add, w]
    simp only [State.secondEvent, tick, last, if_true, wall, clock, Nat.zero_mod]
  obtain ⟨rolled, news⟩ := rollover_work (a := { s with clock := c }) (u := ⟨0, (u.date + 1) % 65536, u.dayStart⟩)
    (congrArg Clock.time clock.symm)
  generalize turned_eq : turned { s with clock := c } ((u.date + 1) % 65536) = d at *
  generalize State.rollover { s with clock := c } = b at *
  obtain ⟨-, work, clean⟩ := minuteTick_settled b w
  have cfg : b.cfg = s.cfg := by rw [rolled.cfg, ← turned_eq]; rfl
  have refilled : b.refill.1.board = d.refill.1.refill.1.board := by
    have done := refill_boardWork d
    have store : b.store = d.refill.1.store := by rw [rolled.store, done.others]
    unfold State.refill
    rw [store]
    exact (Refill.refillFrom_alike (s := d.refill.1) (t := b)
      ⟨rolled.board, by rw [rolled.cfg, done.others], by rw [rolled.clock, done.others]⟩ (by rw [rolled.flash, done.others])
      _).1.board
  have late : ∀ e ∈ d.refill.1.refill.1.board.entries, low ≤ e.effective := by
    have now : d.now - d.cfg.grace = low := by
      rw [← turned_eq, State.now, turned, ← clock]
      exact Int.zero_sub _
    have rebased : ∀ e ∈ d.board.entries, low ≤ e.effective := by
      rw [← turned_eq]
      intro e he
      exact of_decide_eq_true (List.mem_filter.mp ((rebase_spec s.board s.cfg.grace).1.mem_iff.mp he)).2
    refine refill_late ?_ (refill_late now rebased)
    rw [(refill_boardWork d).others]
    exact now
  have same : s.board.entries.map rebaseEntry = moved := List.map_congr_left fun e _ => by
    simp only [rebaseEntry, less, ← rebaseTime_eq]
  obtain ⟨kept, gone⟩ := rebase_spec s.board s.cfg.grace
  rw [same] at kept gone
  refine ⟨_, s.board.rebase s.cfg.grace, (exec_secondEvent_of_running time).trans (by rw [event]), ?_, kept,
    fun sound => ⟨?_, gone sound.2.1⟩, ?_, ?_⟩
  · have final := (panelWork_withLight (panelWork_withBoard rolled b.refill.1.board) b.cfg w).trans work
    rw [cfg, refilled] at final
    rw [← turned_eq] at final late
    exact ⟨final, late⟩
  · refine List.Pairwise.sublist List.filter_sublist (sortEntries_ordered ?_)
    rw [List.map_map]
    exact (List.nodup_append'.mp sound.2.2).1
  · exact contentWork_keeps_news ((minuteTick_contentWork b w).trans (settle_contentWork _)) news
  · rw [← cfg]
    exact clean

end Sys2Proof.Rounds
end

section
/-! PROOFS. The service clock set by TIME_SET (04 R61 to R63), and the bank selection that it brings (02 R32). -/

namespace Sys2Proof.TimeSetting

open Sys2Proof.Machine

/-! ### Bank selection (R32) -/

/-- A bank is VALID, and of a date. -/
theorem carries_iff (b : BankRecord) (n : Nat) : b.carries n = true ↔ b.state = .valid ∧ b.date = n := by
  simp [BankRecord.carries]

theorem olderThan_iff (b : BankRecord) (n : Nat) : b.olderThan n = true ↔ b.state = .valid ∧ b.date < n := by
  simp [BankRecord.olderThan]

theorem hasDate_iff (st : Store) (n : Nat) : st.hasDate n = true ↔ ∃ i, (st.bank i).state = .valid ∧ (st.bank i).date = n := by
  rw [Store.hasDate, Bool.or_eq_true, carries_iff, carries_iff]
  exact ⟨fun h => h.elim (fun h => ⟨.a, h⟩) fun h => ⟨.b, h⟩, fun ⟨i, h⟩ => by cases i; exacts [.inl h, .inr h]⟩

/-- Of two VALID banks one is older than the other once selection's first step is made (R32). -/
def Apart (u : Store) : Prop := ¬(u.bankA.state = .valid ∧ u.bankB.state = .valid ∧ u.bankA.date = u.bankB.date)

theorem supersede_apart (st : Store) : Apart st.supersede := by
  unfold Apart Store.supersede
  split
  · split
    · rintro ⟨-, valid, -⟩
      cases valid
    · rintro ⟨valid, -⟩
      cases valid
  · assumption

/-- The later-committed of two VALID banks of one date is kept (R29, R32). -/
theorem supersede_of_aLater {st : Store} (same : st.bankA.state = .valid ∧ st.bankB.state = .valid ∧ st.bankA.date = st.bankB.date)
    (h : st.bankA.commit % 65536 = (st.bankB.commit + 1) % 65536) :
    st.supersede = { st with bankB := { st.bankB with state := .free, role := none } } := by
  have later : aLater st.bankA.commit st.bankB.commit = true := if_pos h
  rw [Store.supersede, if_pos same, if_pos later]
  rfl

theorem supersede_of_bLater {st : Store} (same : st.bankA.state = .valid ∧ st.bankB.state = .valid ∧ st.bankA.date = st.bankB.date)
    (h : st.bankB.commit % 65536 = (st.bankA.commit + 1) % 65536) :
    st.supersede = { st with bankA := { st.bankA with state := .free, role := none } } := by
  have earlier : ¬aLater st.bankA.commit st.bankB.commit = true := by
    rw [aLater, if_neg (by omega), if_pos h]
    exact Bool.false_ne_true
  rw [Store.supersede, if_pos same, if_neg earlier]
  rfl

theorem forall_bank {P : BankId → Prop} : (∀ j, P j) ↔ P .a ∧ P .b :=
  ⟨fun h => ⟨h .a, h .b⟩, fun h j => by cases j; exacts [h.1, h.2]⟩

/-- CURRENT goes to the bank of the date, else to the VALID bank of the greatest older date (R32). -/
theorem currentFor_iff {u : Store} (apart : Apart u) (n : Nat) (i : BankId) : u.currentFor n = some i ↔
    (u.bank i).state = .valid ∧ ((u.bank i).date = n ∨
      ((∀ j, (u.bank j).state = .valid → (u.bank j).date ≠ n) ∧ (u.bank i).date < n ∧
        ∀ j, (u.bank j).state = .valid → (u.bank j).date < n → (u.bank j).date ≤ (u.bank i).date)) := by
  unfold Apart at apart
  simp only [Store.currentFor, carries_iff, olderThan_iff, Bool.and_eq_true, decide_eq_true_eq, forall_bank]
  cases i <;> simp only [Store.bank] <;> grind

/-- NEXT goes to the VALID bank of the date that follows (R32). -/
theorem nextFor_iff {u : Store} (apart : Apart u) (n : Nat) (i : BankId) : u.nextFor n = some i ↔
    (u.bank i).state = .valid ∧ n ≠ 65535 ∧ (u.bank i).date = n + 1 := by
  unfold Apart at apart
  simp only [Store.nextFor, carries_iff]
  cases i <;> simp only [Store.bank] <;> grind

/-- A bank after selection: steps 4 and 5 on its superseded record (R32). -/
theorem select_bank (st : Store) (n : Nat) (i : BankId) : (st.select n).bank i =
    (st.supersede.bank i).settleRole i n (st.supersede.currentFor n) (st.supersede.nextFor n) := by
  cases i <;> rfl

theorem select_reuse (st : Store) (n : Nat) :
    (st.select n).reuse = ((st.supersede.currentFor n).isSome && !st.supersede.hasDate n) := rfl

section Role

variable {b : BankRecord} {i : BankId} {n : Nat} {cur nxt : Option BankId}

theorem settleRole_current_iff : (b.settleRole i n cur nxt).role = some .current ↔ cur = some i := by
  unfold BankRecord.settleRole
  split_ifs <;> simp_all [BankRecord.release]

theorem settleRole_next_iff : (b.settleRole i n cur nxt).role = some .next ↔ cur ≠ some i ∧ nxt = some i := by
  unfold BankRecord.settleRole
  split_ifs <;> simp_all [BankRecord.release]

/-- A bank that takes no role has none, and is freed when it is older than the date (R32). -/
theorem settleRole_none (current : cur ≠ some i) (next : nxt ≠ some i) :
    b.settleRole i n cur nxt = if b.olderThan n then b.release else { b with role := none } := by
  rw [BankRecord.settleRole, if_neg current, if_neg next]

/-- A bank that is not older than the date changes its role alone (R32). -/
theorem settleRole_keeps (young : b.olderThan n = false) :
    b.settleRole i n cur nxt = { b with role := (b.settleRole i n cur nxt).role } := by
  unfold BankRecord.settleRole
  simp only [young, Bool.false_eq_true, if_false]
  split_ifs <;> rfl

end Role

/-- No bank holds a role that neither record has. -/
theorem holder_eq_none {st : Store} {x : Role} (h : ∀ i, (st.bank i).role ≠ some x) : st.holder x = none := by
  exact (if_neg (h .a)).trans (if_neg (h .b))

/-- What selection makes of the two banks, by the five steps of R32. -/
theorem select_spec (st : Store) (n : Nat) :
    let u := st.supersede
    let t := st.select n
    (∀ i, (u.bank i).state = .valid → (u.bank i).date = n → (t.bank i).role = some .current ∧ t.reuse = false) ∧
    ((∀ i, (u.bank i).state = .valid → (u.bank i).date ≠ n) →
      ∀ i, (u.bank i).state = .valid → (u.bank i).date < n →
        ((∀ j, (u.bank j).state = .valid → (u.bank j).date < n → (u.bank j).date ≤ (u.bank i).date) →
          (t.bank i).role = some .current ∧ t.reuse = true)) ∧
    ((∀ i, (u.bank i).state = .valid → n < (u.bank i).date) → t.holder .current = none ∧ t.reuse = false) ∧
    (∀ i, (t.bank i).role = some .next ↔ (u.bank i).state = .valid ∧ n ≠ 65535 ∧ (u.bank i).date = n + 1) ∧
    (∀ i, (u.bank i).state = .valid → (u.bank i).date < n → (t.bank i).role ≠ some .current →
      (t.bank i).state = .free) ∧
    (∀ i, ¬((u.bank i).state = .valid ∧ (u.bank i).date < n) →
      t.bank i = { u.bank i with role := (t.bank i).role }) ∧
    (∀ i, (u.bank i).state ≠ .valid → (t.bank i).role = none) := by
  intro u t
  have apart : Apart u := supersede_apart st
  have current (i : BankId) := currentFor_iff apart n i
  have next (i : BankId) := nextFor_iff apart n i
  have hasDate := hasDate_iff u n
  have bank : ∀ i, t.bank i = (u.bank i).settleRole i n (u.currentFor n) (u.nextFor n) := select_bank st n
  have reuse : t.reuse = ((u.currentFor n).isSome && !u.hasDate n) := select_reuse st n
  refine ⟨fun i valid date => ?_, fun none_today i valid older greatest => ?_, fun later => ?_, fun i => ?_,
    fun i valid older role => ?_, fun i young => ?_, fun i invalid => ?_⟩
  · rw [bank, settleRole_current_iff, reuse, hasDate.mpr ⟨i, valid, date⟩]
    exact ⟨(current i).mpr ⟨valid, .inl date⟩, Bool.and_false _⟩
  · have taken := (current i).mpr ⟨valid, .inr ⟨none_today, older, greatest⟩⟩
    have absent : u.hasDate n = false := by
      rw [← Bool.not_eq_true, hasDate]
      rintro ⟨j, there, date⟩
      exact none_today j there date
    rw [bank, settleRole_current_iff, reuse, absent, taken]
    exact ⟨rfl, rfl⟩
  · have absent : u.currentFor n = none := by
      by_contra taken
      obtain ⟨i, taken⟩ := Option.ne_none_iff_exists'.mp taken
      obtain ⟨valid, date⟩ := (current i).mp taken
      have := later i valid
      omega
    rw [reuse, absent]
    refine ⟨holder_eq_none fun i => ?_, rfl⟩
    rw [bank, ne_eq, settleRole_current_iff, absent]
    nofun
  · rw [bank, settleRole_next_iff, next]
    refine ⟨And.right, fun tomorrow => ⟨fun taken => ?_, tomorrow⟩⟩
    obtain ⟨-, today⟩ := (current i).mp taken
    omega
  · rw [bank, ne_eq, settleRole_current_iff] at role
    have not_next : u.nextFor n ≠ some i := fun taken => by
      have := (next i).mp taken
      omega
    rw [bank, settleRole_none role not_next, if_pos ((olderThan_iff ..).mpr ⟨valid, older⟩)]
    rfl
  · rw [bank]
    exact settleRole_keeps (Bool.eq_false_iff.mpr fun older => young ((olderThan_iff ..).mp older))
  · rw [bank, settleRole_none (fun taken => invalid ((current i).mp taken).1) fun taken => invalid ((next i).mp taken).1]
    split <;> rfl

/-- The frontlight window is the half-open one from P40 to P41, across midnight (R146). -/
theorem lit_iff (c : ConfigRecord) {w : Nat} (hw : w < 1440) (on : c.param 40 < 1440) (off : c.param 41 < 1440) :
    c.lit w = true ↔ (w + 1440 - c.param 40) % 1440 < (c.param 41 + 1440 - c.param 40) % 1440 := by
  unfold ConfigRecord.lit
  split_ifs
  · simp only [Bool.and_eq_true, decide_eq_true_eq]
    omega
  · simp only [Bool.or_eq_true, decide_eq_true_eq]
    omega
  · simp only [false_iff]
    omega

/-! ### The faults of a TIME_SET (R63, R174) -/

/-- From `s` to `t` the faults `codes` were raised in turn, at one stamp (R174). -/
def Raised (codes : List FaultCode) (s t : State) : Prop :=
  t.clock = s.clock ∧ t.faults = codes.foldl (fun f c => f.raise c s.clock.stamp) s.faults

theorem Raised.trans {s t u : State} {a b : List FaultCode} (h : Raised a s t) (k : Raised b t u) : Raised (a ++ b) s u := by
  obtain ⟨clock, faults⟩ := h
  obtain ⟨clock', faults'⟩ := k
  refine ⟨clock'.trans clock, ?_⟩
  rw [faults', faults, clock, List.foldl_append]

/-- Work that raises CONTENT faults alone. -/
theorem raised_of_contentWork {s t : State} (h : ContentWork s t) :
    ∃ codes, (∀ c ∈ codes, c.cls = .content) ∧ Raised codes s t := by
  obtain ⟨clock, codes, content, faults⟩ := h
  exact ⟨codes, content, clock, faults⟩

/-- A fault that is raised leaves its class latched (R174). -/
theorem isLatched_of_raised {codes : List FaultCode} {s t : State} (h : Raised codes s t) {c : FaultCode} (mem : c ∈ codes) :
    t.faults.isLatched c.cls = true := by
  obtain ⟨-, faults⟩ := h
  rw [faults]
  clear faults
  obtain ⟨before, after, rfl⟩ := List.append_of_mem mem
  rw [List.foldl_append, List.foldl_cons]
  have first := StartUpEnd.raise_latches (before.foldl (fun f c => f.raise c s.clock.stamp) s.faults) c s.clock.stamp
  generalize (before.foldl (fun f c => f.raise c s.clock.stamp) s.faults).raise c s.clock.stamp = f at first
  clear mem
  induction after generalizing f with
  | nil => exact first
  | cons d after ih => exact ih _ (StartUpEnd.raise_keeps_latched first d _)

/-- A list of CONTENT faults holds none of another class. -/
theorem count_of_content {codes : List FaultCode} (h : ∀ c ∈ codes, c.cls = .content) {c : FaultCode} (hc : c.cls ≠ .content) :
    codes.count c = 0 := List.count_eq_zero.mpr fun mem => hc (h c mem)

/-- The codes of a selection against a date (R32). -/
def missingCodes (st : Store) (date : Nat) : List FaultCode := if st.supersede.hasDate date then [] else [.timetable601]

theorem selectBanks_raised {a : State} {u : ClockTime} (time : a.clock.time = some u) :
    Raised (missingCodes a.store u.date) a a.selectBanks := by
  unfold missingCodes
  simp only [State.selectBanks, time]
  split
  · exact ⟨rfl, rfl⟩
  · exact ⟨rfl, rfl⟩

theorem rebuildBoard_contentWork (s : State) : ContentWork s s.rebuildBoard :=
  (rebuildFrom_contentWork s _).trans (recompose_contentWork _ rowBands)

/-- A rebuild with its hand-over is work towards the panel behind a new board (R6, R22). -/
theorem rebuildBoard_work (s : State) : PanelWork { s with board := s.rebuild.board } s.rebuildBoard := by
  refine PanelWork.trans ?_ (recompose_panelWork _ rowBands)
  obtain ⟨others, cause⟩ := rebuild_boardWork s
  rw [others]
  constructor <;> first | rfl | exact cause

/-- A reply and work that raises CONTENT faults alone, in either order. -/
theorem eitherOrder_reply_contentWork (s : State) (e : Result) (data : List Byte) {work : State → State}
    (hwork : ∀ u, ContentWork u (work u)) : ContentWork s (s.eitherOrder (fun t => t.reply e data) work) := by
  have replied (u : State) : ContentWork u (u.reply e data) := by
    unfold State.reply
    split
    · exact .refl u
    · exact .of_same rfl rfl
  obtain ⟨l, h | h⟩ := eitherOrder_cases s (fun t => t.reply e data) work
  · rw [h]
    exact ((hwork _).trans (replied _)).from rfl rfl
  · rw [h]
    exact ((replied _).trans (hwork _)).from rfl rfl

/-! ### The four cases (R63) -/

/-- The store after a case's effects (R63). -/
def effectStore (a : State) (date : Nat) : TimeCase → Store
  | .firstSet => a.store.select date
  | .dateChange => a.store.select date
  | .jump => a.store
  | .adjust => a.store

/-- The board after a case's effects: rebuilt on the roles that then stand, but kept in ADJUST (R22, R63). -/
def effectBoard (a : State) (date : Nat) : TimeCase → Board
  | .adjust => a.board
  | c => (State.rebuild { a with store := effectStore a date c }).board

/-- The board of a case that rebuilds, as a rebuild of the state that the clock alone tells from the old one. -/
theorem adopted_board (s : State) (v : ClockTime) {c : TimeCase} (rebuilds : c ≠ .adjust) :
    effectBoard (s.adoptTime v) v.date c =
      (State.rebuild { s with clock := ⟨some v, 0⟩, store := effectStore (s.adoptTime v) v.date c }).board := by
  cases c with
  | adjust => exact absurd rfl rebuilds
  | firstSet | dateChange | jump => exact Refill.rebuild_board_alike (by rfl) (by rfl) (by rfl) (by rfl)

/-- The codes that a case raises beside CONTENT faults (R32, R63). -/
def effectCodes (a : State) (date : Nat) : TimeCase → List FaultCode
  | .firstSet => missingCodes a.store date
  | .dateChange => missingCodes a.store date
  | .jump => [.clock702]
  | .adjust => []

section Effects

variable {a : State} {u : ClockTime}

/-- A selection and the rebuild on its roles (R32, R63). -/
theorem selectRebuilt_work (time : a.clock.time = some u) :
    PanelWork { a with
      store := a.store.select u.date
      board := (State.rebuild { a with store := a.store.select u.date }).board } a.selectBanks.rebuildBoard := by
  have work := rebuildBoard_work a.selectBanks
  obtain ⟨faults, chosen, cause⟩ := Uploads.selectBanks_eq a
  have store : Uploads.selected a = a.store.select u.date := by
    unfold Uploads.selected
    rw [time]
  rw [store] at chosen
  have board : a.selectBanks.rebuild.board = (State.rebuild { a with store := a.store.select u.date }).board := by
    rw [chosen]
    exact Refill.rebuild_board_alike (by rfl) (by rfl) (by rfl) (by rfl)
  rw [board] at work
  refine PanelWork.trans ?_ work
  rw [chosen]
  constructor <;> first | rfl | exact cause

theorem timeEffects_work (time : a.clock.time = some u) (c : TimeCase) :
    PanelWork { a with store := effectStore a u.date c, board := effectBoard a u.date c } (a.timeEffects c) := by
  match c with
  | .firstSet | .dateChange => exact selectRebuilt_work time
  | .jump => exact (rebuildBoard_work a).trans (raise_panelWork _ _)
  | .adjust => exact .refl a

/-- The faults of a case: its own codes, and CONTENT faults (R63). -/
theorem timeEffects_raised (time : a.clock.time = some u) (c : TimeCase) :
    ∃ codes, Raised codes a (a.timeEffects c) ∧
      ∃ content, (∀ x ∈ content, x.cls = .content) ∧ codes.Perm (effectCodes a u.date c ++ content) := by
  match c with
  | .firstSet | .dateChange =>
    obtain ⟨content, h, raised⟩ := raised_of_contentWork (rebuildBoard_contentWork a.selectBanks)
    exact ⟨_, (selectBanks_raised time).trans raised, content, h, .refl _⟩
  | .jump =>
    obtain ⟨content, h, raised⟩ := raised_of_contentWork (rebuildBoard_contentWork a)
    exact ⟨_, raised.trans ⟨rfl, rfl⟩, content, h, List.perm_append_comm⟩
  | .adjust => exact ⟨[], ⟨rfl, rfl⟩, [], by simp, .refl _⟩

/-- A case that selects finds no VALID bank of the date (R32, R63). -/
def Missing (a : State) (date : Nat) (c : TimeCase) : Prop :=
  (c.number = 1 ∨ c.number = 2) ∧
    ¬∃ i, (a.store.supersede.bank i).state = .valid ∧ (a.store.supersede.bank i).date = date

/-- The codes of a case, and how often they stand among them (R63). -/
theorem effectCodes_spec (a : State) (date : Nat) (c : TimeCase) :
    (∀ x ∈ effectCodes a date c, x = .timetable601 ∨ x = .clock702) ∧
    (Missing a date c → (effectCodes a date c).count .timetable601 = 1) ∧
    (¬Missing a date c → (effectCodes a date c).count .timetable601 = 0) ∧
    (effectCodes a date c).count .clock702 = if c.number = 3 then 1 else 0 := by
  rw [Missing, ← hasDate_iff]
  cases c <;> cases h : a.store.supersede.hasDate date <;>
    simp [effectCodes, missingCodes, h, TimeCase.number]

end Effects

/-! ### TIME_SET (R61 to R63) -/

/-- The adopted second, for a payload in range (R61). -/
theorem serviceSecond_eq (wall dayStart : Nat) :
    (serviceSecond wall dayStart : Int) = ((wall : Int) - 60 * (dayStart : Int)) % 86400 := by
  have nonneg : 0 ≤ ((wall : Int) - 60 * (dayStart : Int)) % 86400 := Int.emod_nonneg _ (by decide)
  exact Int.toNat_of_nonneg nonneg

section TimeSet

variable {s : State} {r : Request} {rest : List Request}

/-- The clock that a TIME_SET payload brings (R61, R62). -/
def adopted (s : State) (h m sec d1 d0 : Byte) : ClockTime :=
  ⟨serviceSecond (h.toNat * 3600 + m.toNat * 60 + sec.toNat) (s.cfg.param 5), d1.toNat * 256 + d0.toNat, s.cfg.param 5⟩

theorem exec_timeSet_of_headIs {h m sec d1 d0 : Byte} (head : s.headIs r rest) (hk : r.kind = 0x02)
    (hp : r.payload = [h, m, sec, d1, d0]) : exec .timeSet s = .next (State.settle (
      let t := adopted s h m sec d1 d0
      let c := timeCase s.clock.time t.second t.date
      if h.toNat ≤ 23 ∧ m.toNat ≤ 59 ∧ sec.toNat ≤ 59 then
        ((s.adoptTime t).timeEffects c).eitherOrder (fun u => u.reply .ok (b8 c.number ++ b24 t.second))
          fun u => u.recompose allBands
      else s.reply .range [])) := by
  refine congrArg (fun t => Host.Outcome.next (State.settle t))
    ((Uploads.take_eq head (kind := 0x02) (by rw [hk]; rfl) hp rfl _).trans (if_congr ?_ rfl rfl))
  simp only [timeInRange, u8, List.getD_cons_zero, List.getD_cons_succ, Bool.and_eq_true, decide_eq_true_eq, and_assoc]

/-- A TIME_SET in range: what its case makes of the state, the reply, and the faults (R63). -/
theorem timeSet_settled {a : State} {u : ClockTime} (requests : a.link.requests = r :: rest) (time : a.clock.time = some u)
    (c : TimeCase) (data : List Byte) :
    ∃ (t : State) (news : Bool) (codes content : List FaultCode),
      ((a.timeEffects c).eitherOrder (fun u => u.reply .ok data) fun u => u.recompose allBands).settle = t ∧
      PanelWork { a with
        store := effectStore a u.date c
        board := effectBoard a u.date c
        link := a.link.answered r rest 0 news data } t ∧
      Raised codes a t ∧ (∀ x ∈ content, x.cls = .content) ∧ codes.Perm (effectCodes a u.date c ++ content) := by
  have work := timeEffects_work time c
  obtain ⟨codes, raised, content, isContent, perm⟩ := timeEffects_raised time c
  generalize a.timeEffects c = e at *
  obtain ⟨news, done⟩ := NoticeRequests.eitherOrder_reply_panelWork (s := e) (work.link ▸ requests) .ok data
    fun u => recompose_panelWork u allBands
  obtain ⟨more, moreContent, moreRaised⟩ := raised_of_contentWork
    ((eitherOrder_reply_contentWork e .ok data fun u => recompose_contentWork u allBands).trans (settle_contentWork _))
  refine ⟨_, news, codes ++ more, content ++ more, rfl, ?_, raised.trans moreRaised, ?_, ?_⟩
  · rw [work.link] at done
    exact (NoticeRequests.panelWork_withLink work _).trans (done.trans (settle_panelWork _))
  · exact fun x hx => (List.mem_append.mp hx).elim (isContent x) (moreContent x)
  · rw [← List.append_assoc]
    exact perm.append_right more

end TimeSet

/-- Settles O37: the case and its effects, the steps of the selection, and the frontlight window. -/
theorem timeSetAdoptsTheTime : Obligations.TimeSetAdoptsTheTime := by
  refine ⟨fun s r rest h m sec d1 d0 head hk hp waiting => ?timeSet, fun st n => ?selection, fun c => ?light⟩
  case timeSet =>
    intro date
    have run := exec_timeSet_of_headIs head hk hp
    refine ⟨fun out => ?_, fun inRange => ?_⟩
    · rw [run]
      dsimp only
      rw [if_neg out, NoticeRequests.reply_settled head waiting]
      rfl
    · dsimp only [adopted] at run
      rw [if_pos inRange] at run
      have seconds := serviceSecond_eq (h.toNat * 3600 + m.toNat * 60 + sec.toNat) (s.cfg.param 5)
      generalize serviceSecond (h.toNat * 3600 + m.toNat * 60 + sec.toNat) (s.cfg.param 5) = second at run seconds
      generalize case_eq : timeCase s.clock.time second date = c at run
      obtain ⟨t, news, codes, content, settled, work, raised, isContent, perm⟩ := timeSet_settled
        (a := s.adoptTime ⟨second, date, s.cfg.param 5⟩) (headIs_requests head) rfl c (b8 c.number ++ b24 second)
      obtain ⟨isOwn, missing, present, jumps⟩ := effectCodes_spec (s.adoptTime ⟨second, date, s.cfg.param 5⟩) date c
      have counts (x : FaultCode) (hx : x.cls ≠ .content) :
          codes.count x = (effectCodes (s.adoptTime ⟨second, date, s.cfg.param 5⟩) date c).count x := by
        rw [perm.count_eq, List.count_append, count_of_content isContent hx, Nat.add_zero]
      have timetable := counts .timetable601 (by decide)
      have clock := counts .clock702 (by decide)
      have latched {x : FaultCode} (n : codes.count x = 1) : t.faults.isLatched x.cls = true :=
        isLatched_of_raised raised (List.count_pos_iff.mp (n ▸ Nat.one_pos))
      rw [settled] at run
      refine ⟨t, news, second, c.number, effectStore (s.adoptTime ⟨second, date, s.cfg.param 5⟩) date c,
        effectBoard (s.adoptTime ⟨second, date, s.cfg.param 5⟩) date c, _, codes, run, work, ?_, rfl,
        ⟨raised.2, ?_, ?_, ?_, ?_⟩, ?_, ?_⟩
      · exact_mod_cast seconds
      · intro x hx
        rcases List.mem_append.mp (perm.mem_iff.mp hx) with own | other
        · exact .inr (isOwn x own)
        · exact .inl (isContent x other)
      · exact fun none => timetable.trans (missing none)
      · exact fun found => timetable.trans (present found)
      · exact clock.trans jumps
      · intro unset
        obtain rfl : TimeCase.firstSet = c := by rw [← case_eq, unset]; rfl
        exact ⟨rfl, rfl, adopted_board s _ (by simp), fun none => latched (x := .timetable601) (timetable.trans (missing ⟨.inl rfl, none⟩))⟩
      · intro u time
        refine ⟨fun other => ?_, fun day away => ?_, fun day early late => ?_⟩
        · obtain rfl : TimeCase.dateChange = c := by rw [← case_eq, time]; exact (if_pos other).symm
          exact ⟨rfl, rfl, adopted_board s _ (by simp), fun none => latched (x := .timetable601) (timetable.trans (missing ⟨.inr rfl, none⟩))⟩
        · obtain rfl : TimeCase.jump = c := by
            rw [← case_eq, time]
            exact ((if_neg (not_not.mpr day)).trans (if_pos away)).symm
          exact ⟨rfl, rfl, adopted_board s _ (by simp), latched (x := .clock702) (clock.trans jumps)⟩
        · obtain rfl : TimeCase.adjust = c := by
            rw [← case_eq, time]
            exact ((if_neg (not_not.mpr day)).trans (if_neg (by omega))).symm
          exact ⟨rfl, rfl, rfl⟩
  case selection =>
    intro same u t
    exact ⟨fun other => if_neg other, supersede_of_aLater, supersede_of_bLater, select_spec st n⟩
  case light =>
    refine ⟨fun w hw on off => lit_iff c hw on off, fun conserve => rfl, rfl, rfl⟩

end Sys2Proof.TimeSetting
end

section
/-! PROOFS. CLEAN_NOW: the full clean that it queues, and the attempt behind it. -/

namespace Sys2Proof.CleanNow

open Sys2Proof.Machine

/-! ### The attempt behind a clean (R149) -/

theorem noteAttempt_hasClean {s : State} (h : s.tiles.hasClean = true) : s.noteAttempt.tiles.hasClean = true := by
  have chosen : s.choose.2.tiles.hasClean = true := by
    unfold State.choose
    split <;> exact h
  unfold State.noteAttempt
  split
  · exact StartUpEnd.attempt_hasClean chosen
  · exact chosen

/-- While a HOLD class is latched a noted attempt only takes a choice of the schedule, and may wait (R150). -/
theorem noteAttempt_of_holdLatched {s : State} (h : s.holdLatched = true) (waiting : s.attemptWaiting = false) :
    ∃ l w, s.noteAttempt = { s with schedule := l, attemptWaiting := w } := by
  have chosen : ∃ l, s.choose.2 = { s with schedule := l } := by
    unfold State.choose
    split
    · exact ⟨s.schedule, rfl⟩
    · exact ⟨_, rfl⟩
  obtain ⟨l, chosen⟩ := chosen
  unfold State.noteAttempt
  rw [chosen]
  split
  · exact ⟨l, false, by rw [PanelEvents.attempt_of_holdLatched (by exact h), ← waiting]⟩
  · exact ⟨l, true, rfl⟩

/-- The end of a step in which an attempt may wait behind a latched HOLD class (R150). -/
theorem settle_of_holdLatched {s : State} (h : s.holdLatched = true) : s.settle = { s with attemptWaiting := false } := by
  unfold State.settle
  split
  · exact PanelEvents.attempt_of_holdLatched (by exact h)
  · next waiting => rw [← Bool.eq_false_iff.mpr waiting]

/-! ### The clean's jobs and tiles (R128) -/

theorem lowestFree_free {jobs : List Job} (room : jobs.length ≤ 16) :
    (∀ o ∈ jobs, o.num ≠ lowestFree jobs 16 0) ∧ ∀ m, m < lowestFree jobs 16 0 → ∃ o ∈ jobs, o.num = m := by
  obtain ⟨below, all | free⟩ := lowestFree_spec jobs 16 0
  · refine ⟨fun o ho top => ?_, fun m hm => below m (Nat.zero_le m) hm⟩
    have held : List.range 17 ⊆ jobs.map (·.num) := fun m hm => by
      rcases Nat.lt_succ_iff_lt_or_eq.mp (List.mem_range.mp hm) with lt | rfl
      · obtain ⟨k, hk, e⟩ := below m (Nat.zero_le m) (by omega)
        exact List.mem_map.mpr ⟨k, hk, e⟩
      · exact List.mem_map.mpr ⟨o, ho, by omega⟩
    have many := List.nodup_range.length_le_of_subset held
    rw [List.length_range, List.length_map] at many
    omega
  · exact ⟨free, fun m hm => below m (Nat.zero_le m) hm⟩

/-- The job in hand is not QUEUED, and so outlives the absorption. -/
theorem handJob_removeQueued (tm : TileMap) :
    (tm.removeJobs fun j => j.state == .queued).handJob = tm.jobs.find? Job.inHand := by
  unfold TileMap.handJob TileMap.removeJobs
  rw [List.find?_filter]
  congr 1
  funext j
  cases h : j.state <;> simp [Job.inHand, h]

/-- A reference to the job in hand is to no QUEUED job, where numbers are distinct. -/
theorem hand_not_queued {tm : TileMap} (distinct : (tm.jobs.map (·.num)).Nodup) {k : Job}
    (hand : tm.jobs.find? Job.inHand = some k) : tm.jobs.any (fun j => j.num == k.num && j.state == .queued) = false := by
  rw [List.any_eq_false]
  intro j hj both
  rw [Bool.and_eq_true, beq_iff_eq, beq_iff_eq] at both
  obtain ⟨num, queued⟩ := both
  have same := List.inj_on_of_nodup_map distinct hj (List.mem_of_find?_eq_some hand) num
  have inHand := List.find?_some hand
  rw [← same] at inHand
  simp [Job.inHand, queued] at inHand

/-- Where no clean is in the queue, the clean's job and the tiles that refer to it (R128). -/
theorem queueClean_eq {tm : TileMap} (h : tm.hasClean = false) (distinct : (tm.jobs.map (·.num)).Nodup) :
    tm.queueClean.1 = { tm with
      jobs := (tm.jobs.filter fun j => j.state != .queued) ++
        [⟨lowestFree (tm.jobs.filter fun j => j.state != .queued) 16 0, .clean, .fullMode, 0, 0, tm.wt - 1, tm.elapsed,
          .queued, []⟩]
      tiles := tm.tiles.map fun x => { x with
        job := if x.job ≠ none ∧ x.job = (tm.jobs.find? Job.inHand).map (·.num) then x.job
          else some (lowestFree (tm.jobs.filter fun j => j.state != .queued) 16 0) } } := by
  unfold TileMap.queueClean
  rw [if_neg (by simp [h])]
  dsimp only
  rw [handJob_removeQueued]
  simp only [TileMap.removeJobs, List.map_map]
  congr 1
  refine List.map_congr_left fun x _ => ?_
  simp only [Function.comp_apply]
  have outlives (k : Job) (e : tm.jobs.find? Job.inHand = some k) := hand_not_queued distinct e
  cases hand : tm.jobs.find? Job.inHand with
  | none =>
    cases hx : x.job with
    | none => simp [hx, bne]
    | some n => by_cases gone : tm.jobs.any (fun j => j.num == n && j.state == .queued) = true <;> simp only [gone] <;> simp [hx, bne]
  | some k =>
    specialize outlives k hand
    cases hx : x.job with
    | none => simp [hx, bne]
    | some n =>
      by_cases e : n = k.num
      · subst e
        cases x
        cases hx
        simp [outlives]
      · by_cases gone : tm.jobs.any (fun j => j.num == n && j.state == .queued) = true <;> simp only [gone] <;> simp [hx, e, bne]

/-! ### The request (R191) -/

theorem exec_cleanNow_of_headIs {s : State} {r : Request} {rest : List Request} (h : s.headIs r rest) (hk : r.kind = 0x12)
    (hp : r.payload = []) : exec .cleanNow s = .next (State.settle
      (if s.tiles.queueClean.2 then
        (s.setTiles s.tiles.queueClean.1).eitherOrder (fun t => t.reply .ok [1]) State.noteAttempt
      else s.reply .ok [0])) :=
  congrArg (fun t => Host.Outcome.next (State.settle t)) (Uploads.take_eq h (by rw [hk]; rfl) hp rfl _)

theorem queueClean_added (tm : TileMap) : tm.queueClean.2 = !tm.hasClean := by
  unfold TileMap.queueClean
  cases h : tm.hasClean <;> simp

/-- A reply leaves the tile map. -/
theorem reply_tiles (s : State) (e : Result) (d : List Byte) : (s.reply e d).tiles = s.tiles := by
  unfold State.reply
  split <;> rfl

/-- Settles O19: the clean found or queued, the exact queue behind a latched HOLD class, and the queued clean's job and tiles. -/
theorem cleanNowQueuesOneClean : Obligations.CleanNowQueuesOneClean := by
  refine ⟨fun s r rest h hk hp waiting => ⟨fun clean => ?found, fun none => ⟨?queued, fun hold => ?held⟩⟩,
    fun tm => ⟨fun clean => ?same, fun none few distinct => ?job⟩⟩
  case found =>
    rw [exec_cleanNow_of_headIs h hk hp, queueClean_added, clean, if_neg (by simp),
      NoticeRequests.reply_settled h waiting]
    rfl
  case queued =>
    rw [exec_cleanNow_of_headIs h hk hp, queueClean_added, none, if_pos (by rfl)]
    have head : (s.setTiles s.tiles.queueClean.1).link.requests = r :: rest := headIs_requests h
    obtain ⟨news, work⟩ := NoticeRequests.eitherOrder_reply_panelWork head .ok [1] noteAttempt_panelWork
    refine ⟨_, news, rfl, PanelWork.trans (by constructor <;> first | rfl | exact queueClean_elapsed _) (work.trans (settle_panelWork _)), ?_⟩
    refine Rounds.settle_hasClean ?_
    have queued : (s.setTiles s.tiles.queueClean.1).tiles.hasClean = true := queueClean_hasClean s.tiles
    obtain ⟨l, replyLast | replyFirst⟩ := eitherOrder_cases (s.setTiles s.tiles.queueClean.1) (fun t => t.reply .ok [1])
      State.noteAttempt
    · rw [replyLast, reply_tiles]
      exact noteAttempt_hasClean queued
    · rw [replyFirst]
      exact noteAttempt_hasClean (by rw [reply_tiles]; exact queued)
  case held =>
    rw [exec_cleanNow_of_headIs h hk hp, queueClean_added, none, if_pos (by rfl)]
    have head : (s.setTiles s.tiles.queueClean.1).link.requests = r :: rest := headIs_requests h
    obtain ⟨l, replyLast | replyFirst⟩ := eitherOrder_cases (s.setTiles s.tiles.queueClean.1) (fun t => t.reply .ok [1])
      State.noteAttempt
    · obtain ⟨l', w, noted⟩ := noteAttempt_of_holdLatched
        (s := { s.setTiles s.tiles.queueClean.1 with schedule := l }) (by exact hold) (by exact waiting)
      rw [replyLast, noted, reply_answered (by exact head), settle_of_holdLatched (by exact hold), ← waiting]
      exact ⟨l', rfl⟩
    · rw [replyFirst, reply_answered (by exact head)]
      obtain ⟨l', w, noted⟩ := noteAttempt_of_holdLatched (s := { s.setTiles s.tiles.queueClean.1 with
        schedule := l, link := s.link.answered r rest 0 s.faults.newsFlag [1] }) (by exact hold) (by exact waiting)
      refine ⟨l', congrArg Host.Outcome.next ((congrArg State.settle noted).trans ?_)⟩
      rw [settle_of_holdLatched (by exact hold), ← waiting]
      rfl
  case same => rw [TileMap.queueClean, if_pos clean]
  case job =>
    have room : (tm.jobs.filter fun j => j.state != .queued).length ≤ 16 := (List.length_filter_le ..).trans few
    obtain ⟨free, below⟩ := lowestFree_free room
    exact ⟨_, by rw [queueClean_eq none distinct], free, below, by rw [queueClean_eq none distinct]⟩

end Sys2Proof.CleanNow
end

section
/-! PROOFS. The sample: the faults that a step raises beside CONTENT faults, what an attempt debits, and the account. -/

namespace Sys2Proof.Samples

open Sys2Proof.Machine
open Sys2Proof.TimeSetting (Raised)

/-! ### Faults raised beside CONTENT faults -/

/-- From `s` to `t` exactly the faults `own` were raised, in some order, and CONTENT faults among them. -/
def RaisedBeside (own : List FaultCode) (s t : State) : Prop :=
  ∃ codes, (∀ c ∈ codes, c.cls = .content ∨ c ∈ own) ∧ (∀ c, c.cls ≠ .content → codes.count c = own.count c) ∧
    Raised codes s t

theorem raisedBeside_of_contentWork {s t : State} (h : ContentWork s t) : RaisedBeside [] s t := by
  obtain ⟨codes, content, raised⟩ := TimeSetting.raised_of_contentWork h
  exact ⟨codes, fun c hc => .inl (content c hc), fun c hc => TimeSetting.count_of_content content hc, raised⟩

theorem raisedBeside_raise (s : State) (c : FaultCode) : RaisedBeside [c] s (s.raise c) :=
  ⟨[c], fun _ h => .inr h, fun _ _ => rfl, rfl, rfl⟩

theorem RaisedBeside.trans {s t u : State} {a b : List FaultCode} (h : RaisedBeside a s t) (k : RaisedBeside b t u) :
    RaisedBeside (a ++ b) s u := by
  obtain ⟨codes, among, count, raised⟩ := h
  obtain ⟨codes', among', count', raised'⟩ := k
  refine ⟨codes ++ codes', fun c hc => ?_, fun c hc => ?_, raised.trans raised'⟩
  · rcases List.mem_append.mp hc with hc | hc
    · exact (among c hc).imp_right fun m => List.mem_append_left _ m
    · exact (among' c hc).imp_right fun m => List.mem_append_right _ m
  · rw [List.count_append, List.count_append, count c hc, count' c hc]

/-- The order of the faults is left open. -/
theorem RaisedBeside.perm {s t : State} {a b : List FaultCode} (h : RaisedBeside a s t) (p : a.Perm b) : RaisedBeside b s t := by
  obtain ⟨codes, among, count, raised⟩ := h
  exact ⟨codes, fun c hc => (among c hc).imp_right p.mem_iff.mp, fun c hc => (count c hc).trans (p.count_eq c), raised⟩

theorem RaisedBeside.then_content {s t u : State} {own : List FaultCode} (h : RaisedBeside own s t) (k : ContentWork t u) :
    RaisedBeside own s u := (List.append_nil own) ▸ h.trans (raisedBeside_of_contentWork k)

theorem RaisedBeside.of_same {s t u : State} {own : List FaultCode} (clock : u.clock = s.clock) (faults : u.faults = s.faults)
    (h : RaisedBeside own u t) : RaisedBeside own s t :=
  (raisedBeside_of_contentWork (.of_same clock faults)).trans h

/-- Two pieces of work in either order raise the faults of both. -/
theorem eitherOrder_raisedBeside (s : State) {f g : State → State} {a b : List FaultCode} (hf : ∀ u, RaisedBeside a u (f u))
    (hg : ∀ u, RaisedBeside b u (g u)) : RaisedBeside (a ++ b) s (s.eitherOrder f g) := by
  obtain ⟨l, e | e⟩ := eitherOrder_cases s f g <;> rw [e]
  · exact (((hg { s with schedule := l }).trans (hf _)).perm List.perm_append_comm).of_same rfl rfl
  · exact ((hf { s with schedule := l }).trans (hg _)).of_same rfl rfl

/-- A news bit that no fault class has (R177). -/
def NotAClass (b : BitVec 16) : Prop := ∀ c : FaultClass, c.bit &&& b = 0

/-- Faults leave the news items that are no fault class's as they are (R174, R177). -/
theorem foldl_raise_news {b : BitVec 16} (apart : NotAClass b) (codes : List FaultCode) (f : FaultUnit) (stamp : Option Stamp) :
    (codes.foldl (fun f c => f.raise c stamp) f).news &&& b = f.news &&& b := by
  induction codes generalizing f with
  | nil => rfl
  | cons c codes ih =>
    refine (ih _).trans ?_
    unfold FaultUnit.raise
    dsimp only
    split
    · rfl
    · rw [BitVec.and_or_distrib_right, apart]
      exact BitVec.or_zero

theorem foldl_raise_cause (codes : List FaultCode) (f : FaultUnit) (stamp : Option Stamp) :
    (codes.foldl (fun f c => f.raise c stamp) f).cause = f.cause := by
  induction codes generalizing f with
  | nil => rfl
  | cons c codes ih => exact ih _

/-! ### What an attempt debits (R152) -/

/-- From `s` to `t` the estimate falls by what a grant debits, and only by a grant, which a job in hand excludes. -/
structure Debits (s t : State) : Prop where
  le : t.energy.estimate ≤ s.energy.estimate
  idle : t.drive.granted = none → s.drive.granted = none ∧ t.energy.estimate = s.energy.estimate
  busy : s.tiles.handJob ≠ none → t.tiles.handJob ≠ none ∧ t.energy.estimate = s.energy.estimate

theorem Debits.refl (s : State) : Debits s s := ⟨le_rfl, fun h => ⟨h, rfl⟩, fun h => ⟨h, rfl⟩⟩

theorem Debits.trans {s t u : State} (h : Debits s t) (k : Debits t u) : Debits s u := by
  refine ⟨k.le.trans h.le, fun none => ?_, fun busy => ?_⟩
  · obtain ⟨idle, same⟩ := k.idle none
    exact (h.idle idle).imp_right same.trans
  · obtain ⟨hand, same⟩ := h.busy busy
    exact (k.busy hand).imp_right fun e => e.trans same

/-- Nothing is granted, and every job in hand stays. -/
theorem Debits.of_same {s t : State} (estimate : t.energy.estimate = s.energy.estimate)
    (granted : t.drive.granted = s.drive.granted) (hand : s.tiles.handJob ≠ none → t.tiles.handJob ≠ none) : Debits s t :=
  ⟨estimate.le, fun none => ⟨granted ▸ none, estimate⟩, fun busy => ⟨hand busy, estimate⟩⟩

theorem handJob_ne_none_iff (tm : TileMap) : tm.handJob ≠ none ↔ ∃ k ∈ tm.jobs, k.inHand = true := by
  rw [ne_eq, Grants.handJob_eq_none_iff]
  simp

theorem startDrive_granted (s : State) : s.startDrive.drive.granted = s.drive.granted := by
  unfold State.startDrive
  split <;> rfl

theorem meetOff_granted (s : State) : s.meetOff.drive.granted = s.drive.granted := by
  unfold State.meetOff
  split <;> rfl

theorem choose_granted (s : State) : s.choose.2.drive.granted = s.drive.granted := by
  unfold State.choose
  split <;> rfl

theorem meetBooster_granted (s : State) : s.meetBooster.drive.granted = s.drive.granted := by
  rcases meetBooster_cases s with e | e | e | e | e <;> rw [e]
  · exact meetOff_granted s
  · exact startDrive_granted _
  · exact (meetOff_granted _).trans (choose_granted s)
  · exact (startDrive_granted _).trans (choose_granted s)

/-- A grant gives the Panel Drive its job (R152). -/
theorem attempt_granted {s : State} {j : Job} {band : Nat} (h : s.chooseJob = some (j, band)) :
    s.attempt.drive.granted = some j.num := by
  rw [Grants.attempt_eq h]
  split
  · obtain ⟨faults, composer, tiles, applied⟩ := Grants.applySize_eq (Grants.granted s j band) j.num
    rw [applied]
    rfl
  · exact meetBooster_granted _

theorem attempt_debits (s : State) : Debits s s.attempt := by
  cases choice : s.chooseJob with
  | none =>
    have same : s.attempt = s := by rw [State.attempt, choice]
    rw [same]
    exact .refl s
  | some pick =>
    obtain ⟨j, band⟩ := pick
    have energy := Grants.attempt_energy choice
    obtain ⟨-, free, -⟩ := (Grants.chooseJob_eq_some_iff s j band).mp choice
    refine ⟨?_, fun none => ?_, fun busy => ?_⟩
    · rw [energy]
      exact Nat.sub_le _ _
    · rw [attempt_granted choice] at none
      cases none
    · exact absurd ((Grants.handJob_eq_none_iff _).mpr free) busy

theorem choose_debits (s : State) : Debits s s.choose.2 := by
  unfold State.choose
  split <;> exact .of_same rfl rfl id

theorem noteAttempt_debits (s : State) : Debits s s.noteAttempt := by
  unfold State.noteAttempt
  split
  · exact (choose_debits s).trans (attempt_debits _)
  · exact (choose_debits s).trans (.of_same rfl rfl id)

theorem settle_debits (s : State) : Debits s s.settle := by
  unfold State.settle
  split
  · exact Debits.trans (t := { s with attemptWaiting := false }) (.of_same rfl rfl id) (attempt_debits _)
  · exact .refl s

/-- Formation takes apart the jobs that wait alone (R120). -/
theorem formRow_hand {tm : TileMap} (h : tm.handJob ≠ none) (band : JobClass) (r : Nat) :
    (tm.formRow band r).1.handJob ≠ none := by
  rw [handJob_ne_none_iff] at h ⊢
  obtain ⟨k, mem, hand⟩ := h
  unfold TileMap.formRow
  split
  · exact ⟨k, mem, hand⟩
  · dsimp only
    rw [Formation.queueSpans_eq]
    have waits : k.waitsInRow r = false := by
      cases state : k.state <;> simp_all [Job.inHand, Job.waitsInRow]
    exact ⟨k, List.mem_append_left _ (List.mem_filter.mpr ⟨mem, by simp [waits]⟩), hand⟩

theorem handOver_debits (s : State) (r : Nat) : Debits s (s.handOver r) := by
  have formed : Debits s (s.setTiles (s.tiles.formRow s.notices.jobClass r).1) := .of_same rfl rfl fun h => formRow_hand h _ r
  unfold State.handOver
  dsimp only
  split
  · exact formed.trans (noteAttempt_debits _)
  · exact formed

theorem handOverAll_debits (rows : List Nat) (s : State) : Debits s (s.handOverAll rows) := by
  induction rows generalizing s with
  | nil => exact .refl s
  | cons r rows ih => exact (handOver_debits s r).trans (ih _)

theorem recompose_debits (s : State) (b : Bands) : Debits s (s.recompose b) := by
  obtain ⟨faults, rows, pixels, tiles, composed⟩ := StepInvariants.compose_eq s b
  refine Debits.trans ?_ (handOverAll_debits _ _)
  rw [composed]
  exact .of_same rfl rfl id

theorem eitherOrder_debits (s : State) {f g : State → State} (hf : ∀ u, Debits u (f u)) (hg : ∀ u, Debits u (g u)) :
    Debits s (s.eitherOrder f g) := by
  have scheduled (l : List Bool) : Debits s { s with schedule := l } := .of_same rfl rfl id
  obtain ⟨l, e | e⟩ := eitherOrder_cases s f g <;> rw [e]
  · exact (scheduled l).trans ((hg _).trans (hf _))
  · exact (scheduled l).trans ((hf _).trans (hg _))

theorem eitherOrder_panelWork (s : State) {f g : State → State} (hf : ∀ u, PanelWork u (f u)) (hg : ∀ u, PanelWork u (g u)) :
    PanelWork s (s.eitherOrder f g) := by
  have scheduled (l : List Bool) : PanelWork s { s with schedule := l } := by constructor <;> rfl
  obtain ⟨l, e | e⟩ := eitherOrder_cases s f g <;> rw [e]
  · exact (scheduled l).trans ((hg _).trans (hf _))
  · exact (scheduled l).trans ((hf _).trans (hg _))

/-! ### The comparator before the sample (R161) -/

/-- What an event of the supply level leaves for a sample: the configuration, the clock, and the account but for a debit. -/
structure LevelWork (s t : State) : Prop extends ContentWork s t where
  cfg : t.cfg = s.cfg
  energy : t.energy = { s.energy with estimate := t.energy.estimate }

theorem LevelWork.refl (s : State) : LevelWork s s := ⟨.refl s, rfl, rfl⟩

theorem returnGranted_contentWork (s : State) : ContentWork s s.returnGranted := by
  unfold State.returnGranted
  split <;> exact .of_same rfl rfl

theorem takeBrownout_contentWork (s : State) : ContentWork s s.takeBrownout := by
  unfold State.takeBrownout
  dsimp only
  split
  · exact .of_same rfl rfl
  · exact ((returnGranted_contentWork _).trans (attempt_contentWork _)).from rfl rfl
  · exact .of_same rfl rfl
  · exact .of_same rfl rfl

theorem takeSupplyRise_contentWork (s : State) : ContentWork s s.takeSupplyRise := by
  unfold State.takeSupplyRise
  dsimp only
  split <;> exact .of_same rfl rfl

theorem driveEvent_levelWork (s : State) (up : Bool) : LevelWork s (s.driveEvent (if up then .supplyRise else .brownout)) := by
  unfold State.driveEvent
  split
  · exact ⟨.of_same rfl rfl, rfl, rfl⟩
  · cases up
    · exact ⟨takeBrownout_contentWork s, (takeBrownout_panelWork s).cfg, (takeBrownout_panelWork s).energy⟩
    · exact ⟨takeSupplyRise_contentWork s, (takeSupplyRise_panelWork s).cfg, (takeSupplyRise_panelWork s).energy⟩

theorem seeVoltage_levelWork (s : State) (mv : Int) : LevelWork s (s.seeVoltage mv) := by
  unfold State.seeVoltage
  split
  · exact .refl s
  · rcases moveLevel_cases s (decide ((s.cfg.param 20 : Int) < mv)) with ⟨-, e⟩ | ⟨-, e⟩ <;> rw [e]
    · exact .refl s
    · exact driveEvent_levelWork s _

/-- A reading on the side that the comparator reports moves nothing (R161). -/
theorem seeVoltage_same {s : State} {mv : Int} (h : s.above = decide ((s.cfg.param 20 : Int) < mv)) : s.seeVoltage mv = s := by
  unfold State.seeVoltage State.moveLevel
  split
  · rfl
  · exact if_pos h.symm

/-! ### The account (R136 to R139, R143, R144, R147) -/

theorem lowLevel_eq (n : Nat) : lowLevel n = ([2100, 2300, 2500, 2700, 2900, 3100, 3400, 3700] : List Nat).getD n 3700 := by
  unfold lowLevel
  split
  case h_8 =>
    have top : 7 ≤ n := by
      by_contra below
      interval_cases n <;> simp_all
    rcases Nat.eq_or_lt_of_le top with rfl | past
    · rfl
    · exact (List.getD_eq_default _ _ past).symm
  all_goals rfl

section Account

variable (u : State) (mv c : Int)

/-- The conserve state that a storage voltage gives (R143). -/
def conserveAt (vs : Nat) : Bool :=
  if u.energy.conserve then decide (vs < lowLevel (u.cfg.param 21) + 100) else decide (vs < lowLevel (u.cfg.param 21))

/-- The account after a sample's own three steps (R136 to R139, R143, R144, R147). -/
def sampled (vs : Nat) : Energy := { u.energy with
  vs := some vs
  temp := some (saturateTemp c)
  estimate := usableEnergy (u.cfg.param 19) (u.cfg.param 20) vs
  conserve := conserveAt u vs
  lowFlag := u.energy.lowFlag || decide (vs < lowLevel (u.cfg.param 21))
  duty := if conserveAt u vs = u.energy.conserve then u.energy.duty else u.cfg.duty u.energy.window (conserveAt u vs) }

/-- The news set with the two changes of the conserve state (R143). -/
def conserveNews (vs : Nat) : BitVec 16 :=
  u.faults.news ||| (if u.energy.conserve = false ∧ vs < lowLevel (u.cfg.param 21) then 0x0200 else 0) |||
    (if u.energy.conserve = true ∧ lowLevel (u.cfg.param 21) + 100 ≤ vs then 0x0400 else 0)

/-- The fault of a low storage voltage (R143, R144). -/
def lowCodes (vs : Nat) : List FaultCode :=
  if vs < lowLevel (u.cfg.param 21) ∧ (u.energy.conserve = false ∨ u.energy.lowFlag = false) then [.supply801] else []

theorem sampleOwn_eq : u.sampleOwn mv c = { u with
    energy := sampled u c (saturateVs mv)
    faults := (lowCodes u (saturateVs mv)).foldl (fun f c => f.raise c u.clock.stamp)
      { u.faults with news := conserveNews u (saturateVs mv) } } := by
  unfold State.sampleOwn State.measure State.judgeConserve sampled conserveNews lowCodes conserveAt
  dsimp only
  cases conserve : u.energy.conserve
  · by_cases low : saturateVs mv < lowLevel (u.cfg.param 21)
    · simp [low, State.enterConserve, State.setDuty, State.addNews, State.raise, NewsItem.bit]
    · simp [low]
  · by_cases leaves : lowLevel (u.cfg.param 21) + 100 ≤ saturateVs mv
    · have high : ¬saturateVs mv < lowLevel (u.cfg.param 21) := by omega
      have up : ¬saturateVs mv < lowLevel (u.cfg.param 21) + 100 := by omega
      simp [leaves, high, up, State.leaveConserve, State.setDuty, State.addNews, NewsItem.bit]
    · have stays : saturateVs mv < lowLevel (u.cfg.param 21) + 100 := by omega
      cases flag : u.energy.lowFlag <;> by_cases low : saturateVs mv < lowLevel (u.cfg.param 21) <;>
        simp [leaves, stays, low, State.repeatLow, State.raise]

end Account

/-! ### The work behind the account -/

theorem handConserve_work (s : State) (was : Bool) :
    PanelWork s (s.handConserve was) ∧ ContentWork s (s.handConserve was) ∧ Debits s (s.handConserve was) := by
  unfold State.handConserve
  split
  · exact ⟨.refl s, .refl s, .refl s⟩
  · split
    · exact ⟨(recompose_panelWork s allBands).trans (noteAttempt_panelWork _),
        (recompose_contentWork s allBands).trans (noteAttempt_contentWork _),
        (recompose_debits s allBands).trans (noteAttempt_debits _)⟩
    · exact ⟨recompose_panelWork s allBands, recompose_contentWork s allBands, recompose_debits s allBands⟩

/-- The fault of a temperature in no band (R162). -/
def tempCodes (c : Int) : List FaultCode :=
  if saturateTemp c < -10 then [.temp401] else if 55 < saturateTemp c then [.temp402] else []

theorem tempFault_work (s : State) (c : Int) :
    PanelWork s (s.tempFault c) ∧ RaisedBeside (tempCodes c) s (s.tempFault c) ∧ Debits s (s.tempFault c) := by
  unfold State.tempFault tempCodes
  split
  · exact ⟨raise_panelWork s _, raisedBeside_raise s _, .of_same rfl rfl id⟩
  · split
    · exact ⟨raise_panelWork s _, raisedBeside_raise s _, .of_same rfl rfl id⟩
    · exact ⟨.refl s, raisedBeside_of_contentWork (.refl s), .refl s⟩

/-- The Composer's, the Panel Drive's and the arbiter's part of a sample, to the end of the step (R137). -/
theorem sample_work (s : State) (mv c : Int) :
    PanelWork (s.sampleOwn mv c) (s.sample mv c).settle ∧
      RaisedBeside (tempCodes c) (s.sampleOwn mv c) (s.sample mv c).settle ∧
      Debits (s.sampleOwn mv c) (s.sample mv c).settle := by
  unfold State.sample
  refine ⟨?_, ?_, ?_⟩
  · refine (eitherOrder_panelWork _ (fun u => ?_) fun u => ?_).trans ((noteAttempt_panelWork _).trans (settle_panelWork _))
    · exact (handConserve_work u _).1
    · exact (tempFault_work u c).1
  · refine RaisedBeside.then_content ?_ ((noteAttempt_contentWork _).trans (settle_contentWork _))
    refine eitherOrder_raisedBeside (a := []) _ (fun u => ?_) fun u => ?_
    · exact raisedBeside_of_contentWork (handConserve_work u _).2.1
    · exact (tempFault_work u c).2.1
  · refine (eitherOrder_debits _ (fun u => ?_) fun u => ?_).trans ((noteAttempt_debits _).trans (settle_debits _))
    · exact (handConserve_work u _).2.2
    · exact (tempFault_work u c).2.2

theorem mem_lowCodes {u : State} {vs : Nat} {x : FaultCode} (h : x ∈ lowCodes u vs) : x = .supply801 := by
  unfold lowCodes at h
  split at h
  · exact List.mem_singleton.mp h
  · cases h

theorem count_lowCodes (u : State) (vs : Nat) : (lowCodes u vs).count .temp401 = 0 ∧ (lowCodes u vs).count .temp402 = 0 ∧
    (lowCodes u vs).count .supply801 =
      if vs < lowLevel (u.cfg.param 21) ∧ (u.energy.conserve = false ∨ u.energy.lowFlag = false) then 1 else 0 := by
  unfold lowCodes
  split <;> decide

theorem mem_tempCodes {c : Int} {x : FaultCode} (h : x ∈ tempCodes c) : x = .temp401 ∨ x = .temp402 := by
  unfold tempCodes at h
  split at h
  · exact .inl (List.mem_singleton.mp h)
  · split at h
    · exact .inr (List.mem_singleton.mp h)
    · cases h

theorem count_tempCodes (c : Int) : (tempCodes c).count .temp401 = (if saturateTemp c < -10 then 1 else 0) ∧
    (tempCodes c).count .temp402 = (if 55 < saturateTemp c then 1 else 0) ∧ (tempCodes c).count .supply801 = 0 := by
  unfold tempCodes
  by_cases cold : saturateTemp c < -10
  · have not_hot : ¬55 < saturateTemp c := by omega
    rw [if_pos cold, if_pos cold, if_neg not_hot]
    decide
  · rw [if_neg cold, if_neg cold]
    split <;> decide

/-! ### The two news items of the conserve state (R177) -/

theorem conserve_bits (x : BitVec 16) (p q : Prop) [Decidable p] [Decidable q] :
    (x ||| (if p then 0x0200 else 0) ||| (if q then 0x0400 else 0)) &&& 0x0200 = (if p then 0x0200 else x &&& 0x0200) ∧
    (x ||| (if p then 0x0200 else 0) ||| (if q then 0x0400 else 0)) &&& 0x0400 = (if q then 0x0400 else x &&& 0x0400) := by
  have absorbs (y b : BitVec 16) : (y &&& b) ||| b = b := by ext i hi; simp
  by_cases hp : p <;> by_cases hq : q <;> simp [hp, hq, BitVec.and_or_distrib_right, absorbs]

theorem notAClass_entered : NotAClass 0x0200 := by
  intro c
  cases c <;> decide

theorem notAClass_left : NotAClass 0x0400 := by
  intro c
  cases c <;> decide

/-- Settles O35: the account of the sample's own steps, the debits and the faults of the work behind them, and the news. -/
theorem sampleSetsTheAccount : Obligations.SampleSetsTheAccount := by
  refine ⟨fun s mv c running zero waiting => ?due, fun s mv c notDue => ?notDue⟩
  case notDue => simp [exec, execSupplySample, Rounds.due_eq_false notDue]
  case due =>
    intro started u vs temp level conserve
    refine ⟨fun same => seeVoltage_same (by exact same), ?_⟩
    obtain ⟨seen, cfg, energy⟩ := seeVoltage_levelWork started mv
    obtain ⟨clock, codes, content, raised⟩ := seen
    obtain ⟨work, faults, debits⟩ := sample_work u mv c
    have same_level : lowLevel (u.cfg.param 21) = level := by rw [lowLevel_eq, cfg]
    have same_flag : u.energy.conserve = s.energy.conserve ∧ u.energy.lowFlag = s.energy.lowFlag := by
      rw [energy]
      exact ⟨rfl, rfl⟩
    obtain ⟨same_conserve, same_low⟩ := same_flag
    have same_news {b : BitVec 16} (apart : NotAClass b) : u.faults.news &&& b = s.faults.news &&& b := by
      rw [raised]
      exact foldl_raise_news apart codes _ _
    have own := sampleOwn_eq u mv c
    have news : conserveNews u vs = u.faults.news ||| (if s.energy.conserve = false ∧ vs < level then 0x0200 else 0) |||
        (if s.energy.conserve = true ∧ level + 100 ≤ vs then 0x0400 else 0) := by
      rw [← same_conserve, ← same_level]
      rfl
    have account : sampled u c vs = { s.energy with
        vs := some vs, temp := some temp, conserve := conserve
        estimate := usableEnergy (s.cfg.param 19) (s.cfg.param 20) vs
        lowFlag := s.energy.lowFlag || decide (vs < level)
        duty := if conserve = s.energy.conserve then s.energy.duty else s.cfg.duty s.energy.window conserve } := by
      unfold sampled conserveAt
      rw [same_level, cfg, energy]
      rfl
    rw [show saturateVs mv = vs from rfl, account, news] at own
    have estimate : (u.sampleOwn mv c).energy.estimate = usableEnergy (s.cfg.param 19) (s.cfg.param 20) vs := by rw [own]
    obtain ⟨among, listed, each, -, final⟩ := faults
    have all : (u.sample mv c).settle.faults = (lowCodes u vs ++ among).foldl (fun f c => f.raise c s.clock.stamp) { u.faults with
        news := u.faults.news ||| (if s.energy.conserve = false ∧ vs < level then 0x0200 else 0) |||
          (if s.energy.conserve = true ∧ level + 100 ≤ vs then 0x0400 else 0) } := by
      rw [final, own, List.foldl_append]
      dsimp only
      rw [show u.clock = s.clock from clock]
    refine ⟨(u.sample mv c).settle, ?_, ?_, estimate ▸ debits.le, fun free => ?_,
      ⟨lowCodes u vs ++ among, all, ?_, ?_, ?_, ?_⟩, ?_, ?_⟩
    · simp only [exec, execSupplySample, (Timer.due_iff _).mpr ⟨running, zero⟩, if_true]
      rfl
    · rw [own] at work
      exact PanelWork.trans (by constructor <;> first | rfl | exact foldl_raise_cause _ _ _) work
    · rw [← estimate]
      rcases free with none | busy
      · exact (debits.idle none).2
      · refine (debits.busy ?_).2
        rw [own]
        exact busy
    · intro x hx
      rcases List.mem_append.mp hx with hx | hx
      · exact .inr (.inr (.inr (mem_lowCodes hx)))
      · exact (listed x hx).imp_right fun mem => (mem_tempCodes mem).imp_right .inl
    · rw [List.count_append, each .temp401 (by decide), (count_lowCodes u vs).1, (count_tempCodes c).1, Nat.zero_add,
        show saturateTemp c = temp from rfl]
    · rw [List.count_append, each .temp402 (by decide), (count_lowCodes u vs).2.1, (count_tempCodes c).2.1, Nat.zero_add,
        show saturateTemp c = temp from rfl]
    · rw [List.count_append, each .supply801 (by decide), (count_lowCodes u vs).2.2, (count_tempCodes c).2.2, Nat.add_zero,
        same_level, same_conserve, same_low]
    · rw [all, foldl_raise_news notAClass_entered, (conserve_bits _ _ _).1, same_news notAClass_entered]
    · rw [all, foldl_raise_news notAClass_left, (conserve_bits _ _ _).2, same_news notAClass_left]

end Sys2Proof.Samples
end

section
/-! PROOFS. TEXT_PUT and GLYPH_PUT: an answer and a recomposition in either order, and the entry that the write's end leaves. -/

namespace Sys2Proof.TablePuts

open Sys2Proof.Machine
open Sys2Proof.Samples (RaisedBeside)

/-! ### An answer beside a recomposition -/

/-- An answer to the request at the head, of code `e` with the data `d`, that raises the faults `own`. -/
def Answers (f : State → State) (e : Nat) (d : List Byte) (own : List FaultCode) : Prop :=
  ∀ (s : State) (r : Request) (rest : List Request), s.link.requests = r :: rest → ∃ l news, f s = { s with
    schedule := l
    faults := own.foldl (fun f c => f.raise c s.clock.stamp) s.faults
    link := s.link.answered r rest e news d }

theorem answers_reply (e : Result) (d : List Byte) : Answers (fun t => t.reply e d) e.code d [] :=
  fun s _ _ h => ⟨s.schedule, s.faults.newsFlag, reply_answered h e d⟩

theorem answers_storeFail (d : List Byte) : Answers (fun t => t.storeFail d) 15 d [.store106] :=
  fun _ _ _ h => StopWindows.storeFail_answered h d

/-- What a recomposition needs for every tile to come to want its image. -/
structure Ready (s : State) : Prop where
  image : s.imageSound
  config : s.cfg.inRange = true
  glyphs : s.glyphsSound
  size : s.sizeDiffers = false

/-- An answered state shows what it showed, and is as ready for a recomposition. -/
theorem Ready.of_answered {s : State} (h : Ready s) (l : List Bool) (faults : FaultUnit) (r : Request) (rest : List Request)
    (e : Nat) (news : Bool) (d : List Byte) :
    Ready { s with schedule := l, faults := faults, link := s.link.answered r rest e news d } := by
  obtain ⟨image, config, ⟨present, -⟩, size⟩ := h
  exact ⟨image, config, ⟨present, nofun⟩, size⟩

theorem geometry_of_config {s : State} (h : Ready s) : 6 ≤ s.tiles.wt ∧ 3 ≤ s.tiles.ht := by
  obtain ⟨width, height⟩ := Grants.size_of_inRange h.config
  have size := h.size
  simp only [State.sizeDiffers, Bool.or_eq_false_iff, bne_eq_false_iff_eq] at size
  obtain ⟨wt, ht⟩ := size
  exact ⟨wt ▸ width, ht ▸ height⟩

/-- A recomposition of every band leaves every tile wanting its image (R87, R90, R91). -/
theorem recompose_paints {s : State} (h : Ready s) {i : Nat} (within : i < s.tiles.wt * s.tiles.ht) :
    (s.recompose allBands).wantsItsImage i := by
  obtain ⟨wide, high⟩ := geometry_of_config h
  obtain ⟨-, wanted⟩ := recompose_wanted h.image h.glyphs h.size wide high allBands
  exact (wanted i within).1 (Grants.allBands_cover within)

theorem recompose_sizeDiffers {s : State} (h : s.sizeDiffers = false) (b : Bands) : (s.recompose b).sizeDiffers = false := by
  refine (handOverAll_rows _ ?_).2
  obtain ⟨wt, ht⟩ := compose_geometry s b
  rw [← h]
  simp only [State.sizeDiffers, (compose_panelWork s b).cfg, wt, ht]

theorem settle_paints {s : State} (size : s.sizeDiffers = false) {i : Nat} (h : s.wantsItsImage i) : s.settle.wantsItsImage i := by
  obtain ⟨sight, wanted⟩ := (settle_grantWork size).sight
  exact wantsItsImage_of_same sight (by rw [wanted]) h

section Ends

variable {s : State} {r : Request} {rest : List Request} {f : State → State} {e : Nat} {d : List Byte} {own : List FaultCode}

/-- The end of a step that answers and recomposes every band, in either order: the answer stands beside work towards the panel. -/
theorem answeredRecomposed_work (head : s.link.requests = r :: rest) (answers : Answers f e d own) :
    ∃ news, PanelWork { s with link := s.link.answered r rest e news d }
      (s.eitherOrder f fun t => t.recompose allBands).settle := by
  obtain ⟨l, last | first⟩ := eitherOrder_cases s f fun t => t.recompose allBands
  · have done := recompose_panelWork { s with schedule := l } allBands
    obtain ⟨l', news, answered⟩ := answers _ r rest ((congrArg Link.requests done.link).trans head)
    refine ⟨news, PanelWork.trans ?_ (settle_panelWork _)⟩
    have scheduled : PanelWork { s with link := s.link.answered r rest e news d }
        { s with schedule := l, link := s.link.answered r rest e news d } := by constructor <;> rfl
    rw [last, answered, done.link]
    refine (scheduled.trans (NoticeRequests.panelWork_withLink done _)).trans ?_
    constructor <;> first | rfl | exact Samples.foldl_raise_cause _ _ _
  · obtain ⟨l', news, answered⟩ := answers { s with schedule := l } r rest head
    refine ⟨news, PanelWork.trans ?_ (settle_panelWork _)⟩
    rw [first, answered]
    refine PanelWork.trans (t := { s with
      schedule := l'
      faults := own.foldl (fun f c => f.raise c s.clock.stamp) s.faults
      link := s.link.answered r rest e news d }) ?_ (recompose_panelWork _ allBands)
    constructor <;> first | rfl | exact Samples.foldl_raise_cause _ _ _

/-- Beside CONTENT faults the step raises those of the answer. -/
theorem answeredRecomposed_raised (head : s.link.requests = r :: rest) (answers : Answers f e d own) :
    RaisedBeside own s (s.eitherOrder f fun t => t.recompose allBands).settle := by
  have answer (u : State) (h : u.link.requests = r :: rest) : RaisedBeside own u (f u) := by
    obtain ⟨l, news, answered⟩ := answers u r rest h
    rw [answered]
    exact ⟨own, fun _ h => .inr h, fun _ _ => rfl, rfl, rfl⟩
  obtain ⟨l, last | first⟩ := eitherOrder_cases s f fun t => t.recompose allBands
  · rw [last]
    have composed := Samples.raisedBeside_of_contentWork (recompose_contentWork { s with schedule := l } allBands)
    have link := (recompose_panelWork { s with schedule := l } allBands).link
    exact (composed.trans (answer _ ((congrArg Link.requests link).trans head))).of_same rfl rfl |>.then_content (settle_contentWork _)
  · rw [first]
    exact ((answer { s with schedule := l } head).then_content
      ((recompose_contentWork _ allBands).trans (settle_contentWork _))).of_same rfl rfl

/-- At the end of the step every tile wants its image (R87, R91). -/
theorem answeredRecomposed_paints (head : s.link.requests = r :: rest) (answers : Answers f e d own) (ready : Ready s) {i : Nat}
    (within : i < s.tiles.wt * s.tiles.ht) : (s.eitherOrder f fun t => t.recompose allBands).settle.wantsItsImage i := by
  obtain ⟨image, config, glyphs, size⟩ := ready
  obtain ⟨l, last | first⟩ := eitherOrder_cases s f fun t => t.recompose allBands
  · have painted := recompose_paints (s := { s with schedule := l }) ⟨image, config, glyphs, size⟩ within
    have sized := recompose_sizeDiffers (s := { s with schedule := l }) size allBands
    have link := (recompose_panelWork { s with schedule := l } allBands).link
    obtain ⟨l', news, answered⟩ := answers _ r rest ((congrArg Link.requests link).trans head)
    rw [last, answered]
    exact settle_paints (by exact sized) (by exact painted)
  · obtain ⟨l', news, answered⟩ := answers { s with schedule := l } r rest head
    have again := Ready.of_answered (s := { s with schedule := l }) ⟨image, config, glyphs, size⟩ l'
      (own.foldl (fun f c => f.raise c s.clock.stamp) s.faults) r rest e news d
    rw [first, answered]
    exact settle_paints (recompose_sizeDiffers again.size allBands) (recompose_paints again within)

end Ends

/-! ### The entries (R96 to R99) -/

/-- The glyphs present stay sound where one item is written and, where it is present, sound. -/
theorem glyphsSound_of_written {s t : State} {n : Nat} {y : Item Glyph} (h : s.glyphsSound)
    (flash : t.flash.glyphs = tableWrite s.flash.glyphs n y)
    (others : ∀ k, k ≠ n → k ∈ t.presence.glyphs → k ∈ s.presence.glyphs) (link : t.link = s.link)
    (good : n ∈ t.presence.glyphs → ∀ g, (tableRead t.flash.glyphs n).contents = some g → g.inRange = true) :
    t.glyphsSound := by
  obtain ⟨present, writing⟩ := h
  refine ⟨fun code g entry => ?_, fun code g write => writing code g (link ▸ write)⟩
  rcases TablesAndCounts.glyphEntry_after_write flash others entry with ⟨rfl, listed, contents⟩ | old
  · exact good listed g contents
  · exact present code g old

/-- One STORE/106, latched with its class. -/
theorem latched_of_raised {codes : List FaultCode} {s t : State} (raised : TimeSetting.Raised codes s t)
    (count : codes.count .store106 = 1) : t.faults.isLatched .store = true :=
  TimeSetting.isLatched_of_raised (c := .store106) raised (List.count_pos_iff.mp (count ▸ Nat.one_pos))

section Requests

variable {s : State} {r : Request} {rest : List Request}

theorem exec_textPut_of_headIs (h : s.headIs r rest) (hk : r.kind = 0x0D) (hl : lengthAllowed 0x0D r.payload.length = true) :
    exec .textPut s = .next (if textInRange (textOf r.payload) then s.startWrite (.text (u8 r.payload 0) (textOf r.payload))
      else s.reply .range []) :=
  congrArg Host.Outcome.next (Uploads.take_eq h (by rw [hk]; rfl) rfl hl _)

theorem exec_glyphPut_of_headIs (h : s.headIs r rest) (hk : r.kind = 0x0E) (hl : lengthAllowed 0x0E r.payload.length = true) :
    exec .glyphPut s = .next (if glyphInRange r.payload then s.startWrite (.glyph (u16 r.payload 0) (glyphOf r.payload))
      else s.reply .range []) :=
  congrArg Host.Outcome.next (Uploads.take_eq h (by rw [hk]; rfl) rfl hl _)

end Requests

/-- Settles O56: the refusal and the write's start, and the entry, the answer, the faults and the tiles at its two ends. -/
theorem textPutReplacesOneEntry : Obligations.TextPutReplacesOneEntry := by
  refine ⟨fun s r rest h hk hl => ⟨fun out => ?refused, fun inRange => ?starts⟩,
    fun s id codes r rest ⟨write, head⟩ waiting => ?ends⟩
  case refused =>
    rw [exec_textPut_of_headIs h hk hl, out, if_neg (by simp), Uploads.reply_eq h (by rfl)]
    rfl
  case starts =>
    rw [exec_textPut_of_headIs h hk hl, inRange, if_pos (by rfl)]
    rfl
  case ends =>
    intro drawn raises
    refine ⟨?verified, ?failed⟩
    case verified =>
      have run : exec (.textWriteEnd true) s = .next ((s.putText id codes).eitherOrder
          (fun t => t.reply .ok (textData id codes)) fun t => t.recompose allBands).settle := by
        simp only [exec, execTextWriteEnd, write, if_true]
      have answers := answers_reply .ok (textData id codes)
      obtain ⟨news, work⟩ := answeredRecomposed_work (s := s.putText id codes) head answers
      obtain ⟨raised, content, -, -, faults⟩ := answeredRecomposed_raised (s := s.putText id codes) head answers
      refine ⟨_, news, raised, run, fun image config glyphs size i within => ?_, faults,
        fun c hc => (content c hc).resolve_right nofun,
        ?_, ?_⟩
      · exact answeredRecomposed_paints (s := s.putText id codes) head answers ⟨image, config.1, glyphs, size⟩ within
      · rw [work.flash, work.presence]
        exact work
      · rw [work.flash, work.presence]
        exact ⟨tableRead_write_same _ _ rfl, fun k other => tableRead_write_other _ other _, rfl,
          (mem_presentAdd _ _ _).mpr (.inl rfl), fun k other => (mem_presentAdd _ _ _).trans (or_iff_right other), rfl⟩
    case failed =>
      have run : exec (.textWriteEnd false) s = .next ((s.loseText id).eitherOrder
          (fun t => t.storeFail (textData id codes)) fun t => t.recompose allBands).settle := by
        simp only [exec, execTextWriteEnd, write, Bool.false_eq_true, if_false]
      have answers := answers_storeFail (textData id codes)
      obtain ⟨news, work⟩ := answeredRecomposed_work (s := s.loseText id) head answers
      obtain ⟨raised, among, count, faults⟩ := answeredRecomposed_raised (s := s.loseText id) head answers
      have once := count .store106 (by decide)
      refine ⟨_, news, raised, run, fun image config glyphs size i within => ?_, faults.2,
        fun c hc => (among c hc).imp_right List.mem_singleton.mp, once, ?_, latched_of_raised faults once, ?_⟩
      · exact answeredRecomposed_paints (s := s.loseText id) head answers ⟨image, config.1, glyphs, size⟩ within
      · rw [work.flash, work.presence]
        exact work
      · rw [work.flash, work.presence]
        exact ⟨fun k other => tableRead_write_other _ other _, rfl, fun listed => ((mem_presentDrop _ _ _).mp listed).2 rfl,
          fun k other => (mem_presentDrop _ _ _).trans (and_iff_left other), rfl⟩

/-- Settles O57: the refusal and the write's start, and the entry, the answer, the faults and the tiles at its two ends. -/
theorem glyphPutReplacesOneEntry : Obligations.GlyphPutReplacesOneEntry := by
  refine ⟨fun s r rest h hk hl => ⟨fun out => ?refused, fun inRange => ?starts⟩,
    fun s code g r rest ⟨write, head⟩ waiting => ?ends⟩
  case refused =>
    rw [exec_glyphPut_of_headIs h hk hl, out, if_neg (by simp), Uploads.reply_eq h (by rfl)]
    rfl
  case starts =>
    rw [exec_glyphPut_of_headIs h hk hl, inRange, if_pos (by rfl)]
    rfl
  case ends =>
    intro drawn raises
    refine ⟨?verified, ?failed⟩
    case verified =>
      have run : exec (.glyphWriteEnd true) s = .next ((s.putGlyph code g).eitherOrder
          (fun t => t.reply .ok (glyphData code g)) fun t => t.recompose allBands).settle := by
        simp only [exec, execGlyphWriteEnd, write, if_true]
      have answers := answers_reply .ok (glyphData code g)
      obtain ⟨news, work⟩ := answeredRecomposed_work (s := s.putGlyph code g) head answers
      obtain ⟨raised, content, -, -, faults⟩ := answeredRecomposed_raised (s := s.putGlyph code g) head answers
      refine ⟨_, news, raised, run, fun image config glyphs size i within => ?_, faults,
        fun c hc => (content c hc).resolve_right nofun,
        ?_, ?_⟩
      · refine answeredRecomposed_paints (s := s.putGlyph code g) head answers ⟨image, config.1, ?_, size⟩ within
        refine glyphsSound_of_written (n := code) (y := .good g) glyphs rfl (fun k other listed => ?_) rfl fun _ h contents => ?_
        · exact ((mem_presentAdd _ _ _).mp listed).resolve_left other
        · have same : tableRead (s.putGlyph code g).flash.glyphs code = .good g := tableRead_write_same _ _ rfl
          rw [same] at contents
          cases contents
          exact glyphs.2 code g write
      · rw [work.flash, work.presence]
        exact work
      · rw [work.flash, work.presence]
        exact ⟨tableRead_write_same _ _ rfl, fun k other => tableRead_write_other _ other _, rfl,
          (mem_presentAdd _ _ _).mpr (.inl rfl), fun k other => (mem_presentAdd _ _ _).trans (or_iff_right other), rfl⟩
    case failed =>
      have run : exec (.glyphWriteEnd false) s = .next ((s.loseGlyph code).eitherOrder
          (fun t => t.storeFail (glyphData code g)) fun t => t.recompose allBands).settle := by
        simp only [exec, execGlyphWriteEnd, write, Bool.false_eq_true, if_false]
      have answers := answers_storeFail (glyphData code g)
      obtain ⟨news, work⟩ := answeredRecomposed_work (s := s.loseGlyph code) head answers
      obtain ⟨raised, among, count, faults⟩ := answeredRecomposed_raised (s := s.loseGlyph code) head answers
      have once := count .store106 (by decide)
      refine ⟨_, news, raised, run, fun image config glyphs size i within => ?_, faults.2,
        fun c hc => (among c hc).imp_right List.mem_singleton.mp, once, ?_, latched_of_raised faults once, ?_⟩
      · refine answeredRecomposed_paints (s := s.loseGlyph code) head answers ⟨image, config.1, ?_, size⟩ within
        refine glyphsSound_of_written (n := code) (y := Config.glyphLeft s.freeCount) glyphs rfl (fun k other listed => ?_) rfl
          fun listed => ?_
        · exact ((mem_presentDrop _ _ _).mp listed).1
        · exact absurd rfl ((mem_presentDrop _ _ _).mp listed).2
      · rw [work.flash, work.presence]
        exact work
      · rw [work.flash, work.presence]
        exact ⟨fun k other => tableRead_write_other _ other _, rfl, fun listed => ((mem_presentDrop _ _ _).mp listed).2 rfl,
          fun k other => (mem_presentDrop _ _ _).trans (and_iff_left other), rfl⟩

end Sys2Proof.TablePuts
end

section
/-! PROOFS. CONFIG_SET: what each owner leaves when it takes a new value, the board at P04 and P07, and the marks of P17. -/

namespace Sys2Proof.Settings

open Sys2Proof.Machine

/-! ### What an owner leaves (R188) -/

/-- From `s` to `t` nothing changed of the configuration, the flash, the link, the clock, the banks, the notices and the tables. -/
structure OwnerWork (s t : State) : Prop where
  cfg : t.cfg = s.cfg
  flash : t.flash = s.flash
  link : t.link = s.link
  clock : t.clock = s.clock
  store : t.store = s.store
  notices : t.notices = s.notices
  presence : t.presence = s.presence

theorem OwnerWork.trans {s t u : State} (h : OwnerWork s t) (k : OwnerWork t u) : OwnerWork s u :=
  ⟨k.cfg.trans h.cfg, k.flash.trans h.flash, k.link.trans h.link, k.clock.trans h.clock, k.store.trans h.store,
    k.notices.trans h.notices, k.presence.trans h.presence⟩

theorem ownerWork_of_panelWork {s t : State} (h : PanelWork s t) : OwnerWork s t :=
  ⟨h.cfg, h.flash, h.link, h.clock, h.store, h.notices, h.presence⟩

/-- An event of the supply level is the Panel Drive's own. -/
theorem levelEvent_ownerWork (s : State) (up : Bool) :
    OwnerWork s (s.driveEvent (if up then .supplyRise else .brownout)) ∧
      (s.driveEvent (if up then .supplyRise else .brownout)).board = s.board := by
  unfold State.driveEvent
  split
  · exact ⟨by constructor <;> rfl, rfl⟩
  · cases up
    · have work := takeBrownout_panelWork s
      exact ⟨OwnerWork.trans (by constructor <;> rfl) (ownerWork_of_panelWork work), work.board⟩
    · have work := takeSupplyRise_panelWork s
      exact ⟨OwnerWork.trans (by constructor <;> rfl) (ownerWork_of_panelWork work), work.board⟩

theorem seeVoltage_ownerWork (s : State) (mv : Int) :
    OwnerWork s (s.seeVoltage mv) ∧ (s.seeVoltage mv).board = s.board := by
  unfold State.seeVoltage
  split
  · exact ⟨ownerWork_of_panelWork (.refl s), rfl⟩
  · rcases moveLevel_cases s (decide ((s.cfg.param 20 : Int) < mv)) with ⟨-, e⟩ | ⟨-, e⟩ <;> rw [e]
    · exact ⟨ownerWork_of_panelWork (.refl s), rfl⟩
    · exact levelEvent_ownerWork s _

/-- A change of the board and a hand-over of its rows. -/
theorem boardChanged_work (s : State) (b : Board) :
    OwnerWork s ((s.setBoard b).recompose rowBands) ∧ ((s.setBoard b).recompose rowBands).board = b := by
  have work := recompose_panelWork (s.setBoard b) rowBands
  exact ⟨OwnerWork.trans (by constructor <;> rfl) (ownerWork_of_panelWork work), work.board⟩

/-- P04 takes the entries on platforms no longer shown off the board (R25). -/
theorem dropHidden_work (s : State) : OwnerWork s s.dropHidden ∧
    s.dropHidden.board = ⟨s.board.entries.filter fun e => s.cfg.shows e.platform, s.board.gone⟩ := by
  unfold State.dropHidden
  dsimp only
  split
  · next all =>
    refine ⟨ownerWork_of_panelWork (.refl s), ?_⟩
    rw [List.length_filter_eq_length_iff.mp all |> List.filter_eq_self.mpr]
  · exact boardChanged_work s _

/-- P07 takes the second stage of the sweep (R25). -/
theorem regrace_work (s : State) : OwnerWork s s.regrace ∧
    s.regrace.board = s.board.sweepPassed s.now s.cfg.grace := by
  unfold State.regrace
  dsimp only
  split
  · next all =>
    have stays := List.length_filter_eq_length_iff.mp all
    have leaves : s.board.entries.filter (Entry.passed s.now s.cfg.grace) = [] :=
      List.filter_eq_nil_iff.mpr fun e he => by simpa using stays e he
    refine ⟨ownerWork_of_panelWork (.refl s), ?_⟩
    rw [Board.sweepPassed, leaves, List.filter_eq_self.mpr stays]
    rfl
  · exact boardChanged_work s _

/-- An owner other than P04's and P07's leaves the board too. -/
theorem handParam_work (s : State) (id old : Nat) :
    OwnerWork s (s.handParam id old) ∧ (id ≠ 4 → id ≠ 7 → (s.handParam id old).board = s.board) := by
  have panel {t : State} (h : PanelWork s t) : OwnerWork s t ∧ (id ≠ 4 → id ≠ 7 → t.board = s.board) :=
    ⟨ownerWork_of_panelWork h, fun _ _ => h.board⟩
  have resized : PanelWork s (if s.sizeDiffers then s.queueFullClean else s) := by
    split
    · exact queueFullClean_panelWork s
    · exact .refl s
  unfold State.handParam
  split
  case h_4 => exact ⟨(dropHidden_work s).1, fun other => absurd rfl other⟩
  case h_5 => exact ⟨(regrace_work s).1, fun _ other => absurd rfl other⟩
  case h_14 => exact panel (takeTiles_panelWork s _ (newLimit_elapsed ..))
  case h_15 =>
    obtain ⟨work, board⟩ := seeVoltage_ownerWork s.fresh.2
      (if s.above then max (Config.storageVoltage s.fresh.1) (old + 1) else min (Config.storageVoltage s.fresh.1) old)
    exact ⟨OwnerWork.trans (by constructor <;> rfl) work, fun _ _ => board⟩
  case h_1 | h_2 => exact panel resized
  case h_13 | h_16 | h_17 | h_18 | h_19 | h_20 => exact ⟨by constructor <;> rfl, fun _ _ => rfl⟩
  case h_21 => exact panel (.refl s)
  all_goals exact panel (recompose_panelWork s _)

/-! ### The marks of P17 (R126, R127) -/

theorem formRows_wanted (band : JobClass) (rows : List Nat) (tm : TileMap) :
    (TileMap.formRows band tm rows).1.tiles.map (·.wanted) = tm.tiles.map (·.wanted) := by
  induction rows generalizing tm with
  | nil => rfl
  | cons r rows ih => exact (ih _).trans (formRow_wanted tm band r)

theorem testThreshold_wanted (tm : TileMap) : tm.testThreshold.1.tiles.map (·.wanted) = tm.tiles.map (·.wanted) := by
  unfold TileMap.testThreshold
  split
  · exact (PanelInvariants.queueClean_wanted tm).1
  · rfl

/-- A new limit behind its marks changes no tile but its job, and queues the clean over the threshold (R126, R127). -/
theorem newLimit_of_le {tm : TileMap} {band : JobClass} {old new : Nat} (le : new ≤ old) :
    let m := (tm.newLimit band old new).1
    SameGlass (tm.markGhosts new) m ∧ m.tiles.map (·.wanted) = (tm.markGhosts new).tiles.map (·.wanted) ∧
      ((tm.markGhosts new).overThreshold = true → m.hasClean = true) := by
  unfold TileMap.newLimit
  rw [if_neg (by omega)]
  refine ⟨(testThreshold_sameGlass _).trans (formRows_sameGlass ..), (formRows_wanted ..).trans (testThreshold_wanted _),
    fun above => StartUpEnd.formRows_hasClean ?_ _ _⟩
  rw [TileMap.testThreshold, if_pos above]
  exact queueClean_hasClean _

/-- Tiles of one glass are clear-due alike. -/
theorem countP_clearDue {a b : TileMap} (h : SameGlass a b) : b.tiles.countP (·.clearDue) = a.tiles.countP (·.clearDue) := by
  have counted (l : List Tile) : l.countP (·.clearDue) = (l.map Tile.glass).countP fun x => x.2.2 := by
    rw [List.countP_map]
    rfl
  rw [counted, counted, h.glass]

/-- Tile by tile, what a new limit marks (R126), and the clean it queues (R127). -/
theorem newLimit_spec (tm : TileMap) (band : JobClass) (old new : Nat) :
    let m := (tm.newLimit band old new).1
    let hand := (tm.jobs.find? Job.inHand).map (·.num)
    m.wt = tm.wt ∧ m.ht = tm.ht ∧ m.tiles.length = tm.tiles.length ∧
    (∀ (i : Nat) (a b : Tile), tm.tiles[i]? = some a → m.tiles[i]? = some b →
      b.shown = a.shown ∧ b.wanted = a.wanted ∧ b.ghost = a.ghost ∧
      (b.clearDue = true ↔ a.clearDue = true ∨ (new ≤ old ∧ new ≤ a.ghost ∧ (a.job = none ∨ a.job ≠ hand)))) ∧
    (new ≤ old → tm.wt * tm.ht < 4 * m.tiles.countP (·.clearDue) → m.hasClean = true) := by
  intro m hand
  by_cases raised : old < new
  · have same : m = tm := by
      unfold m TileMap.newLimit
      rw [if_pos raised]
    rw [same]
    refine ⟨rfl, rfl, rfl, fun i a b ha hb => ?_, fun le => by omega⟩
    cases ha.symm.trans hb
    exact ⟨rfl, rfl, rfl, by simp [Nat.not_le.mpr raised]⟩
  · have le : new ≤ old := Nat.not_lt.mp raised
    obtain ⟨glass, wanted, clean⟩ := newLimit_of_le (tm := tm) (band := band) le
    refine ⟨glass.wt, glass.ht, glass.length.trans (List.length_map _), fun i a b ha hb => ?_, fun _ above => clean ?_⟩
    · have marked : (tm.markGhosts new).tiles[i]? = some
          (if new ≤ a.ghost ∧ ¬(a.job.isSome ∧ a.job = hand) then { a with clearDue := true } else a) := by
        simp only [TileMap.markGhosts, List.getElem?_map, ha]
        rfl
      change (tm.newLimit band old new).1.tiles[i]? = some b at hb
      obtain ⟨shown, ghost, due⟩ := glass.tile marked hb
      have same := congrArg (·[i]?) wanted
      simp only [List.getElem?_map, hb, marked, Option.map_some, Option.some.injEq] at same
      rw [shown, ghost, same, due]
      cases job : a.job <;> split <;> simp_all
    · rw [countP_clearDue glass] at above
      exact decide_eq_true above

/-- A takeover of the Tile Map with its attempt, while no change of size is pending. -/
theorem takeTiles_spec {s : State} {a : TileMap × Bool} (size : (s.setTiles a.1).sizeDiffers = false) :
    (s.takeTiles a).tiles.tiles = a.1.tiles ∧ (a.1.hasClean = true → (s.takeTiles a).tiles.hasClean = true) ∧
      (s.takeTiles a).sizeDiffers = false := by
  unfold State.takeTiles
  split
  · have work := noteAttempt_grantWork size
    exact ⟨work.tiles, fun clean => CleanNow.noteAttempt_hasClean (by exact clean), work.sizeDiffers.trans size⟩
  · exact ⟨rfl, id, size⟩

/-! ### The reply beside the owner's work (R189) -/

/-- An answer beside work that leaves the link and does not look at it in what is asked of it here. -/
theorem eitherOrder_reply_owner {s : State} {r : Request} {rest : List Request} (head : s.link.requests = r :: rest)
    {data : State → List Byte} {work : State → State} (link : ∀ u, (work u).link = u.link)
    (same : ∀ u, u.cfg = s.cfg → data u = data s) (cfg : ∀ u, (work u).cfg = u.cfg) :
    ∃ schedule waits news, s.eitherOrder (fun t => t.reply .ok (data t)) work =
      { work { s with schedule := schedule, link := waits } with link := s.link.answered r rest 0 news (data s) } := by
  obtain ⟨l, last | first⟩ := eitherOrder_cases s (fun t => t.reply .ok (data t)) work
  · have queued : (work { s with schedule := l }).link.requests = r :: rest := by
      rw [link]
      exact head
    have replied := reply_answered queued .ok (data (work { s with schedule := l }))
    have asked : data (work { s with schedule := l }) = data s := same _ (by rw [cfg])
    rw [link, asked] at replied
    refine ⟨l, s.link, (work { s with schedule := l }).faults.newsFlag, last.trans ?_⟩
    rw [asked]
    exact replied
  · have replied := reply_answered (s := { s with schedule := l }) head .ok (data s)
    have linked := link { s with schedule := l, link := s.link.answered r rest 0 s.faults.newsFlag (data s) }
    refine ⟨l, s.link.answered r rest 0 s.faults.newsFlag (data s), s.faults.newsFlag, ?_⟩
    refine (first.trans (congrArg work ((congrArg (State.reply _ .ok) (same _ (by rfl))).trans replied))).trans ?_
    exact congrArg (fun k => { work { s with schedule := l, link := s.link.answered r rest 0 s.faults.newsFlag (data s) } with
      link := k }) linked

theorem exec_configSet_of_headIs {s : State} {r : Request} {rest : List Request} {id v3 v2 v1 v0 : Byte} (h : s.headIs r rest)
    (hk : r.kind = 0x03) (hp : r.payload = [id, v3, v2, v1, v0]) :
    let value := ((v3.toNat * 256 + v2.toNat) * 256 + v1.toNat) * 256 + v0.toNat
    exec .configSet s = .next (if paramKnown id.toNat then
      if paramInRange id.toNat value then s.startWrite (.config id.toNat (BitVec.ofNat 32 value))
      else s.reply .range ([id] ++ b32 (s.cfg.param id.toNat))
    else s.reply .range []) := by
  refine (congrArg Host.Outcome.next (Uploads.take_eq h (by rw [hk]; rfl) hp rfl _)).trans ?_
  simp only [ConfigRecord.paramData, u32, u24, u16, u8, List.getD_cons_zero, List.getD_cons_succ, NoticeRequests.b8_toNat]

theorem param_setParam_same (c : ConfigRecord) {id : Nat} (low : 1 ≤ id) (high : id ≤ 43) (v : BitVec 32) :
    (c.setParam id v).param id = v.toNat := by
  have within : id - 1 < 43 := by omega
  simp [ConfigRecord.param, ConfigRecord.setParam, Vector.getD, within]

/-- Settles O53: the refusals and the write's start, what stands once it is verified, and what a failed write leaves. -/
theorem configSetChangesOneParameter : Obligations.ConfigSetChangesOneParameter := by
  refine ⟨fun s r rest id v3 v2 v1 v0 h hk hp => ?request,
    fun s id value r rest ⟨write, head⟩ waiting low high => ⟨?verified, ?failed⟩⟩
  case request =>
    intro value
    have run := exec_configSet_of_headIs h hk hp
    dsimp only at run
    refine ⟨fun unknown => ?_, fun low high out => ?_, fun low high inRange => ?_⟩
    · have not_known : paramKnown id.toNat = false := by
        rw [← Bool.not_eq_true]
        simp only [paramKnown, Bool.and_eq_true, decide_eq_true_eq]
        omega
      rw [run, not_known, if_neg (by simp), Uploads.reply_eq h (by rfl)]
      rfl
    · have known : paramKnown id.toNat = true := by simp [paramKnown, low, high]
      rw [run, known, if_pos (by rfl), show paramInRange id.toNat _ = false from out, if_neg (by simp),
        Uploads.reply_eq h (by rfl)]
      rfl
    · have known : paramKnown id.toNat = true := by simp [paramKnown, low, high]
      rw [run, known, if_pos (by rfl), show paramInRange id.toNat _ = true from inRange, if_pos (by rfl)]
      rfl
  case failed =>
    obtain ⟨l, news, failed⟩ := StopWindows.failConfig_answered (s := s) head (s.cfg.paramData id)
    have run : exec (.configWriteEnd false) s = .next (s.failConfig (s.cfg.paramData id)) := by
      simp only [exec, execConfigWriteEnd, write, Bool.false_eq_true, if_false]
    rw [failed] at run
    exact ⟨_, news, run, rfl, rfl, rfl, rfl, rfl, rfl, rfl, rfl, rfl, rfl, rfl, rfl, rfl, rfl,
      StopWindows.leftConfig_ne_erased _ _, fun x left => StopWindows.leftConfig_good_windows left⟩
  case verified =>
    generalize adopted : s.cfg.setParam id value = c
    have same : c.param id = value.toNat := adopted ▸ param_setParam_same s.cfg low high value
    have others (k : Nat) (known : 1 ≤ k) (other : k ≠ id) : c.param k = s.cfg.param k :=
      adopted ▸ ClockInvariants.param_setParam_other s.cfg (by omega) value
    have windows : c.windows = s.cfg.windows := adopted ▸ rfl
    have owner (u : State) := handParam_work u id (s.cfg.param id)
    obtain ⟨schedule, waits, news, both⟩ := eitherOrder_reply_owner (s := s.adoptConfig c) (r := r) (rest := rest) head
      (data := fun t => t.cfg.paramData id) (work := fun t => t.handParam id (s.cfg.param id)) (fun u => (owner u).1.link)
      (fun u e => congrArg (ConfigRecord.paramData · id) e) fun u => (owner u).1.cfg
    generalize started : ({ s.adoptConfig c with schedule := schedule, link := waits } : State) = v at both
    obtain ⟨work, board⟩ := owner v
    have run : exec (.configWriteEnd true) s = .next (State.settle { v.handParam id (s.cfg.param id) with
        link := s.link.answered r rest 0 news (c.paramData id) }) := by
      simp only [exec, execConfigWriteEnd, write, if_true, adopted]
      rw [both]
      rfl
    generalize handed : ({ v.handParam id (s.cfg.param id) with
      link := s.link.answered r rest 0 news (c.paramData id) } : State) = h at run
    have settled := settle_panelWork h
    have front : h.cfg = c ∧ h.flash = { s.flash with config := .good c } ∧ h.clock = s.clock ∧ h.store = s.store ∧
        h.notices = s.notices ∧ h.presence = s.presence := by
      rw [← handed]
      dsimp only
      rw [work.cfg, work.flash, work.clock, work.store, work.notices, work.presence, ← started]
      exact ⟨rfl, rfl, rfl, rfl, rfl, rfl⟩
    obtain ⟨cfg, flash, clock, store, notices, presence⟩ := front
    have hboard : h.settle.board = (v.handParam id (s.cfg.param id)).board := settled.board.trans (by rw [← handed])
    have start : v.board = s.board ∧ v.cfg = c ∧ v.clock = s.clock ∧ v.tiles = s.tiles := by
      rw [← started]
      exact ⟨rfl, rfl, rfl, rfl⟩
    obtain ⟨vboard, vcfg, vclock, vtiles⟩ := start
    refine ⟨h.settle, news, run, ?_, fun k known other => ?_, ?_, ?_, ?_, ?_, ?_, ?_, ?_, fun n4 n7 => ?_, ?p04, ?p07, ?p17⟩
    · rw [settled.cfg, cfg, same]
    · rw [settled.cfg, cfg, others k known other]
    · rw [settled.cfg, cfg, windows]
    · rw [settled.cfg, settled.flash, cfg, flash]
    · rw [settled.link, ← handed, ← same]
      rfl
    · rw [settled.clock, clock]
    · rw [settled.store, store]
    · rw [settled.notices, notices]
    · rw [settled.presence, presence]
    · rw [hboard, board n4 n7, vboard]
    case p04 =>
      rintro rfl
      rw [hboard, show v.handParam 4 _ = v.dropHidden from rfl, (dropHidden_work v).2, vboard, vcfg, ← same]
      rfl
    case p07 =>
      rintro rfl u time low
      have now : v.now = (u.second : Int) := by rw [State.now, vclock, time]; rfl
      have grace : v.cfg.grace = (value.toNat : Int) := by rw [vcfg, ← same]; rfl
      rw [hboard, show v.handParam 7 _ = v.regrace from rfl, (regrace_work v).2, vboard, now, grace]
      obtain ⟨-, gone⟩ := Rounds.sweepPassed_spec s.board (.refl _) u.second value.toNat
      refine ⟨?_, gone⟩
      rw [Board.sweepPassed, Rounds.not_passed_eq]
    case p17 =>
      rintro rfl size hand
      have vsize : v.sizeDiffers = false := by
        rw [← size, State.sizeDiffers, State.sizeDiffers, vcfg, vtiles, others 1 (by omega) (by omega),
          others 2 (by omega) (by omega)]
      obtain ⟨wt, ht, length, tiles, clean⟩ := newLimit_spec v.tiles v.notices.jobClass (s.cfg.param 17) (v.cfg.param 17)
      have taken := takeTiles_spec (s := v) (a := v.tiles.newLimit v.notices.jobClass (s.cfg.param 17) (v.cfg.param 17)) (by
        rw [← vsize]
        simp only [State.sizeDiffers, State.setTiles, wt, ht])
      obtain ⟨glass, cleaned, sized⟩ := taken
      have hsize : h.sizeDiffers = false := by rw [← handed]; exact sized
      have htiles : h.tiles = (v.takeTiles (v.tiles.newLimit v.notices.jobClass (s.cfg.param 17) (v.cfg.param 17))).tiles := by
        rw [← handed]
        rfl
      rw [(settle_grantWork hsize).tiles, htiles, glass]
      rw [vcfg, same, vtiles] at *
      exact ⟨length, tiles, fun le above => Rounds.settle_hasClean (by rw [htiles]; exact cleaned (clean le above))⟩

end Sys2Proof.Settings
end

section
/-! PROOFS. PREDICT: the records of a request and their counts, the five stages of a record, and the board's rules for its kind. -/

namespace Sys2Proof.Predictions

open Sys2Proof.Machine

/-! ### The entry of a key after a change (R2, R4) -/

/-- A placed entry is found where nothing else is, and hides nothing else. -/
theorem find_placeEntry (e : Entry) (k : Key) {l : List Entry} (fresh : ∀ x ∈ l, x.key ≠ e.key) :
    (placeEntry e l).find? (·.key == k) = if e.key = k then some e else l.find? (·.key == k) := by
  induction l with
  | nil => by_cases same : e.key = k <;> simp [placeEntry, same]
  | cons x xs ih =>
    have rest := ih fun y hy => fresh y (List.mem_cons_of_mem x hy)
    have head := fresh x List.mem_cons_self
    by_cases first : e.before x = true
    · rw [placeEntry, if_pos first]
      by_cases same : e.key = k
      · rw [if_pos same, List.find?_cons_of_pos (by simpa using same)]
      · rw [if_neg same, List.find?_cons_of_neg (by simpa using same)]
    · rw [placeEntry, if_neg first]
      by_cases here : x.key = k
      · have other : e.key ≠ k := fun same => head (here.trans same.symm)
        rw [if_neg other, List.find?_cons_of_pos (by simpa using here), List.find?_cons_of_pos (by simpa using here)]
      · rw [List.find?_cons_of_neg (by simpa using here), List.find?_cons_of_neg (by simpa using here), rest]

/-- A changed entry is the one of its key, and every other key keeps its own (R4). -/
theorem find_change (b : Board) (e : Entry) (k : Key) : (b.change e).find k = if e.key = k then some e else b.find k := by
  unfold Board.find Board.change
  rw [find_placeEntry e k fun x hx => by simpa using (List.mem_filter.mp hx).2]
  split
  · rfl
  · next other =>
    rw [List.find?_filter]
    congr 1
    funext x
    by_cases here : x.key = k
    · simp [here, Ne.symm other]
    · simp [here]

/-! ### The records of a payload (R44) -/

theorem predictsAt_getElem (p : List Byte) (n o : Nat) :
    (predictsAt p n o).length = n ∧ ∀ k, k < n → (predictsAt p n o)[k]? = some (predictAt p (o + 12 * k)) := by
  induction n generalizing o with
  | zero => exact ⟨rfl, fun k hk => absurd hk (Nat.not_lt_zero k)⟩
  | succ n ih =>
    obtain ⟨length, each⟩ := ih (o + 12)
    refine ⟨congrArg (· + 1) length, fun k hk => ?_⟩
    cases k with
    | zero => rfl
    | succ k =>
      rw [predictsAt, List.getElem?_cons_succ, each k (by omega)]
      congr 2
      omega

theorem inRange_iff (p : PredictRecord) : p.inRange = true ↔
    1 ≤ p.kind ∧ p.kind ≤ 4 ∧ 1 ≤ p.key.route ∧ p.key.route ≤ 999 ∧ 1 ≤ p.key.trip ∧
      (p.kind = 1 → p.second ≤ 100799 ∧ p.destPresent ≤ 1) := by
  simp only [PredictRecord.inRange, Bool.and_eq_true, decide_eq_true_eq, Bool.or_eq_true, bne_iff_ne, ne_eq, and_assoc]
  tauto

/-! ### The counts (R52) -/

/-- Every outcome is counted once. -/
theorem sum_countOutcome (l : List RecordOutcome) :
    countOutcome .applied l + countOutcome .ignored l + countOutcome .notMatched l + countOutcome .notShown l +
      countOutcome .unknownTrip l + countOutcome .outsideHorizon l + countOutcome .range l = l.length := by
  induction l with
  | nil => rfl
  | cons o l ih =>
    simp only [countOutcome, List.length_cons] at ih ⊢
    cases o <;> simp +decide <;> omega

theorem predictCounts_sum {l : List RecordOutcome} (few : l.length < 256) :
    (predictCounts l).length = 7 ∧ ((predictCounts l).map BitVec.toNat).sum = l.length := by
  have count (o : RecordOutcome) : countOutcome o l < 256 := (List.length_filter_le _ l).trans_lt few
  have all := sum_countOutcome l
  refine ⟨rfl, ?_⟩
  simp only [predictCounts, b8, List.cons_append, List.nil_append, List.map_cons, List.map_nil,
    List.sum_cons, List.sum_nil, BitVec.toNat_ofNat]
  rw [Nat.mod_eq_of_lt (count _), Nat.mod_eq_of_lt (count _), Nat.mod_eq_of_lt (count _), Nat.mod_eq_of_lt (count _),
    Nat.mod_eq_of_lt (count _), Nat.mod_eq_of_lt (count _), Nat.mod_eq_of_lt (count _)]
  omega

/-! ### Windows and platforms (R48 to R50) -/

theorem hits_iff (w : Window) (stop : BitVec 16) : w.hits stop = true ↔
    w.enabled = true ∧ ∀ k, k < 16 → w.mask.getLsbD k = true → stop.getLsbD k = w.base.getLsbD k := by
  simp only [Window.hits, Bool.and_eq_true, beq_iff_eq, and_congr_right_iff]
  intro _
  constructor
  · intro same k hk masked
    have bit := congrArg (BitVec.getLsbD · k) same
    simpa [masked] using bit
  · intro same
    refine BitVec.eq_of_getLsbD_eq fun k hk => ?_
    cases masked : w.mask.getLsbD k
    · simp [masked]
    · simp [masked, same k hk masked]

theorem admits_iff (c : ConfigRecord) (stop : BitVec 16) : c.admits stop = true ↔
    (∃ i, i ≤ 5 ∧ (c.window i).hits stop = true) ∧ ¬(c.window 6).hits stop = true ∧
      ¬(c.window 7).hits stop = true := by
  simp only [ConfigRecord.admits, Bool.and_eq_true, List.any_eq_true, List.mem_range, Bool.not_eq_true', Bool.not_eq_true,
    and_assoc, Nat.lt_succ_iff]

/-- The lowest-numbered match window that hits (R50). -/
theorem firstHit_eq {c : ConfigRecord} {stop : BitVec 16} {i : Nat} (low : i ≤ 5) (hit : (c.window i).hits stop = true)
    (lowest : ∀ k, k < i → ¬(c.window k).hits stop = true) : c.firstHit stop = some (c.window i) := by
  have split : List.range 6 = List.range i ++ i :: (List.range' (i + 1) (5 - i)) := by
    interval_cases i <;> rfl
  unfold ConfigRecord.firstHit
  rw [split, List.map_append, List.find?_append, List.find?_eq_none.mpr, Option.none_or, List.map_cons, List.find?_cons, hit]
  intro w hw
  obtain ⟨k, hk, rfl⟩ := List.mem_map.mp hw
  exact lowest k (List.mem_range.mp hk)

/-! ### What the part knows of a key (R2, R8, R15) -/

theorem roleTrips_eq (s : State) (x : Role) : s.roleTrips x =
    if s.store.bankA.role = some x then s.flash.bankA.trips
    else if s.store.bankB.role = some x then s.flash.bankB.trips else [] := by
  unfold State.roleTrips Store.holder
  split
  · rfl
  · split <;> rfl

theorem findTrip_some {s : State} {k : Key} {x : Role} {q : Trip} (h : s.findTrip k = some (x, q)) :
    q ∈ s.roleTrips x ∧ q.key = k ∧ (x = .next → ∀ y ∈ s.roleTrips .current, y.key ≠ k) := by
  unfold State.findTrip at h
  split at h
  · next found =>
    cases h
    exact ⟨List.mem_of_find?_eq_some found, by simpa using List.find?_some found, nofun⟩
  · next absent =>
    split at h
    · next found =>
      cases h
      exact ⟨List.mem_of_find?_eq_some found, by simpa using List.find?_some found, fun _ => by
        simpa using List.find?_eq_none.mp absent⟩
    · cases h

theorem findTrip_none (s : State) (k : Key) : s.findTrip k = none ↔ ∀ x, ∀ q ∈ s.roleTrips x, q.key ≠ k := by
  have roles : (∀ x, ∀ q ∈ s.roleTrips x, q.key ≠ k) ↔
      (∀ q ∈ s.roleTrips .current, q.key ≠ k) ∧ ∀ q ∈ s.roleTrips .next, q.key ≠ k :=
    ⟨fun h => ⟨h _, h _⟩, fun ⟨a, b⟩ x => by cases x <;> assumption⟩
  rw [roles]
  unfold State.findTrip
  split
  · next t found =>
    have key : t.key = k := by simpa using List.find?_some found
    exact ⟨nofun, fun ⟨current, _⟩ => absurd key (current t (List.mem_of_find?_eq_some found))⟩
  · next absent =>
    split
    · next t found =>
      have key : t.key = k := by simpa using List.find?_some found
      exact ⟨nofun, fun ⟨_, next⟩ => absurd key (next t (List.mem_of_find?_eq_some found))⟩
    · next absent' =>
      simp only [true_iff]
      exact ⟨by simpa using List.find?_eq_none.mp absent, by simpa using List.find?_eq_none.mp absent'⟩

theorem isGone_iff (b : Board) (k : Key) : b.isGone k = true ↔ ∃ g ∈ b.gone, g.key = k := by simp [Board.isGone]

theorem inWindow_iff (s : State) (x : Int) :
    s.inWindow x = true ↔ s.now - s.cfg.grace ≤ x ∧ x ≤ s.now + s.cfg.horizon := by simp [State.inWindow]

/-! ### The board's rules, by what the key is (R16 to R21) -/

/-- A change of the board that puts the entry `e` in the place of that of its key, and leaves every other. -/
theorem changed_spec (s : State) (e : Entry) {k : Key} (key : e.key = k) :
    (s.setBoard (s.board.change e)) = { s with board := s.board.change e } ∧ (s.board.change e).gone = s.board.gone ∧
      (s.board.change e).find k = some e ∧ ∀ x, x ≠ k → (s.board.change e).find x = s.board.find x := by
  refine ⟨rfl, rfl, ?_, fun x other => ?_⟩
  · rw [find_change, if_pos key]
  · rw [find_change, if_neg fun same => other (same.symm.trans key)]

section Found

variable {s : State} {k : Key} {e : Entry}

theorem applyEstimate_found (h : s.board.find k = some e) (platform : Nat) (second : Int) (dest : Option Nat) :
    s.applyEstimate k platform second dest = s.estimateEntry e second dest := by simp only [State.applyEstimate, h]

theorem applyCancel_found (h : s.board.find k = some e) (platform : Nat) : s.applyCancel k platform = s.cancelEntry e := by
  simp only [State.applyCancel, h]

theorem applyDeparted_found (h : s.board.find k = some e) :
    s.applyDeparted k = ⟨s.setBoard (s.board.depart s.now s.cfg.grace e), .applied, true⟩ := by
  simp only [State.applyDeparted, h]

/-- The scheduled second of a CANCELLED timetable entry is its effective one (R3). -/
theorem cancelled_passed {x : Int} (origin : e.origin ≠ .extra) (sched : e.sched = some x) (now grace : Int) :
    Entry.passed now grace { e with pred := none, state := .cancelled } = decide (x < now - grace) := by
  have effective : Entry.effective { e with pred := none, state := .cancelled } = x := by
    unfold Entry.effective
    cases h : e.origin <;> simp_all
  rw [Entry.passed, effective]

/-- A departure before now − grace leaves no record (R7). -/
theorem depart_early {x : Int} (sched : e.sched = some x) {now grace : Int} (early : x < now - grace) (b : Board) :
    b.depart now grace e = { b with entries := b.entries.filter fun y => y.key != e.key } := by
  unfold Board.depart departGone
  rw [sched]
  cases e.origin
  case extra => rfl
  all_goals
    dsimp only
    rw [if_neg (by omega)]
    rfl

/-- An ESTIMATE for a trip of a bank that is not on the board (R17). -/
theorem applyEstimate_of_trip {x : Role} {t : Trip} (absent : s.board.find k = none) (fresh : s.board.isGone k = false)
    (trip : s.findTrip k = some (x, t)) (platform : Nat) (second : Int) (dest : Option Nat) :
    s.applyEstimate k platform second dest = if s.inWindow second then
      s.insertFor ⟨k, x.origin, dest.getD t.dest, platform, some (t.sched x), some ⟨second, s.now⟩, .live⟩
    else ⟨s, .outsideHorizon, false⟩ := by
  simp only [State.applyEstimate, absent, fresh, trip, Bool.false_eq_true, if_false]

/-- A CANCEL for a trip of a bank that is not on the board (R19). -/
theorem applyCancel_of_trip {x : Role} {t : Trip} (absent : s.board.find k = none) (fresh : s.board.isGone k = false)
    (trip : s.findTrip k = some (x, t)) (platform : Nat) : s.applyCancel k platform = if s.inWindow (t.sched x) then
      s.insertFor ⟨k, x.origin, t.dest, platform, some (t.sched x), none, .cancelled⟩
    else ⟨s, .outsideHorizon, false⟩ := by
  simp only [State.applyCancel, absent, fresh, trip, Bool.false_eq_true, if_false]

end Found

/-- Settles O43: the request and its counts, the stages of a record, the capacity, the rules for a key on the board, on the gone
list, in a bank and unknown, and the readings they rest on. -/
theorem predictCountsEveryRecord : Obligations.PredictCountsEveryRecord := by
  refine ⟨fun s r rest h hk hl waiting => ?request, fun s p => ?stages, fun s e => ?capacity, fun s k => ?rules,
    fun p n => ?layout, inRange_iff, fun s p => ?windows, fun s k => ?known, fun l => ?counts⟩
  case request =>
    have run : exec .predict s = .next (State.settle (if s.clockRunning then
        (s.intakeAll (predictsAt r.payload (r.payload.length / 12) 0)).1.eitherOrder
          (fun t => t.reply .ok (predictCounts (s.intakeAll (predictsAt r.payload (r.payload.length / 12) 0)).2.1))
          fun t => if (s.intakeAll (predictsAt r.payload (r.payload.length / 12) 0)).2.2 then t.recompose rowBands else t
        else s.reply .clockUnset (predictCounts []))) :=
      congrArg (fun t => Host.Outcome.next (State.settle t)) (Uploads.take_eq h (by rw [hk]; rfl) rfl hl _)
    refine ⟨fun unset => ?_, fun set => ?_⟩
    · have stopped : s.clockRunning = false := by simp [State.clockRunning, unset]
      rw [run, stopped, if_neg (by simp), NoticeRequests.reply_settled h waiting]
      rfl
    · intro a counts
      have running : s.clockRunning = true := by simpa [State.clockRunning, Option.isSome_iff_ne_none] using set
      rw [running, if_pos (by rfl)] at run
      have taken := intakeAll_boardWork (predictsAt r.payload (r.payload.length / 12) 0) s
      have link : a.1.link = s.link := by rw [taken.others]
      have head : a.1.link.requests = r :: rest := (congrArg Link.requests link).trans (headIs_requests h)
      obtain ⟨news, work⟩ := NoticeRequests.eitherOrder_reply_panelWork head .ok counts fun u =>
        NoticeRequests.recomposeIf_panelWork a.2.2 u rowBands
      have length : a.2.1.length = r.payload.length / 12 :=
        (intakeAll_length _ s).trans (predictsAt_getElem r.payload (r.payload.length / 12) 0).1
      have allowed : r.payload.length % 12 = 0 ∧ r.payload.length ≤ 144 := by
        simp only [lengthAllowed, Bool.and_eq_true, beq_iff_eq, decide_eq_true_eq] at hl
        exact ⟨hl.1.1, hl.2⟩
      obtain ⟨whole, most⟩ := allowed
      obtain ⟨seven, sum⟩ := predictCounts_sum (l := a.2.1) (by omega)
      refine ⟨_, news, run, PanelWork.trans ?_ (work.trans (settle_panelWork _)), seven, ?_⟩
      · rw [link]
        have others := taken.others
        have cause := taken.cause
        change a.1 = _ at others
        rw [others]
        constructor <;> first | rfl | exact cause
      · rw [sum, length]
        omega
  case stages =>
    intro platform
    refine ⟨fun out => ?_, fun inRange excluded => ?_, fun inRange admitted hidden => ?_, fun inRange admitted shown => ?_⟩
    · rw [State.intake, out, if_neg (by simp)]
    · rw [State.intake, if_pos inRange, excluded, if_neg (by simp)]
    · rw [State.intake, if_pos inRange, if_pos admitted, show s.cfg.shows (s.assignPlatform p) = false from hidden,
        if_neg (by simp)]
    · have board : s.intake p = s.boardRecord p platform := by
        rw [State.intake, if_pos inRange, if_pos admitted, if_pos shown]
      refine ⟨fun kind => ?_, fun kind => ?_, fun kind => ?_, fun kind => ?_⟩
      · simp only [board, State.boardRecord, kind, PredictRecord.destination, true_and]
      · simp only [board, State.boardRecord, kind]
      · simp only [board, State.boardRecord, kind]
      · simp only [board, State.boardRecord, kind]
  case capacity =>
    refine ⟨⟨rfl, rfl⟩, fun room => ?_, fun first last entries full => ?_⟩
    · rw [State.insertEntry, if_pos room]
      rfl
    · have top : s.board.entries.getLast? = some last := by rw [entries, List.getLast?_concat]
      have below : s.board.entries.dropLast = first := by rw [entries, List.dropLast_concat]
      unfold State.insertEntry
      rw [if_neg (by omega), top]
      dsimp only
      refine ⟨fun before => ?_, fun after => ?_⟩
      · rw [if_pos before, below]
        rfl
      · rw [if_neg (by simp [after])]
        rfl
  case rules =>
    intro low fits changed left estimate cancel
    have depart (e : Entry) : s.board.depart s.now s.cfg.grace e = left e := by
      unfold Board.depart departGone left
      cases e.sched <;> cases e.origin <;> simp [Board.drop, joinGone, low]
    have change (x : Entry) (key : x.key = k) : changed ⟨s.setBoard (s.board.change x), .applied, true⟩ x :=
      ⟨rfl, rfl, changed_spec s x key⟩
    have window (x : Int) : s.inWindow x = true ↔ fits x := inWindow_iff s x
    refine ⟨fun e found => ⟨fun cancelled => ?cancelled, fun stands => ?stands, ?departs⟩, fun absent => ?absent⟩
    case departs => rw [applyDeparted_found found, depart]; rfl
    case cancelled =>
      have restore : s.applyRestore k = if e.origin = .extra then ⟨s.setBoard (s.board.drop k), .applied, true⟩
          else ⟨s.setBoard (s.board.change { e with pred := none, state := .planned }), .applied, true⟩ := by
        simp only [State.applyRestore, found, cancelled, if_true]
      refine ⟨fun platform second dest => ?_, fun platform => ?_, fun extra => ?_, fun timetabled => ?_⟩
      · exact (applyEstimate_found found ..).trans (if_pos cancelled)
      · exact (applyCancel_found found _).trans (if_pos cancelled)
      · rw [restore, if_pos extra]
        rfl
      · rw [restore, if_neg timetabled]
        exact change _ (BoardInvariants.find_spec found).2
    case stands =>
      have key := (BoardInvariants.find_spec found).2
      refine ⟨fun platform second dest => ?_, fun platform => ⟨fun extra => ?_, fun timetabled x sched => ?_⟩, ?_⟩
      · have run : estimate platform second dest = if second < low then _ else _ :=
          (applyEstimate_found found ..).trans (if_neg stands)
        refine ⟨fun early => ?_, fun late => ?_⟩
        · rw [run, if_pos early, depart]
          rfl
        · rw [run, if_neg (by omega)]
          exact change _ key
      · have run : cancel platform = _ := (applyCancel_found found _).trans ((if_neg stands).trans (if_pos extra))
        rw [run]
        exact change _ key
      · have run : cancel platform =
            if Entry.passed s.now s.cfg.grace { e with pred := none, state := .cancelled } then _ else _ :=
          (applyCancel_found found _).trans ((if_neg stands).trans (if_neg timetabled))
        rw [run, cancelled_passed timetabled sched]
        refine ⟨fun early => ?_, fun late => ?_⟩
        · rw [if_pos (decide_eq_true early)]
          rw [depart_early (e := { e with pred := none, state := .cancelled }) sched early]
          rfl
        · rw [if_neg (show ¬decide (x < low) = true by simpa using late)]
          exact change _ key
      · simp only [State.applyRestore, found, stands, if_false]
    case absent =>
      refine ⟨by simp only [State.applyRestore, absent], fun gone => ?_,
        fun fresh => ⟨fun x p trip => ?_, fun unknown => ?_⟩⟩
      · exact ⟨fun platform second dest => by simp only [estimate, State.applyEstimate, absent, gone, if_true],
          fun platform => by simp only [cancel, State.applyCancel, absent, gone, if_true],
          by simp only [State.applyDeparted, absent, gone, if_true]⟩
      · have origin : x.origin = if x = .current then .current else .next := by cases x <;> rfl
        refine ⟨fun platform second dest => ?_, fun platform => ?_, fun inside => ?_, fun outside => ?_⟩
        · have run : estimate platform second dest = _ := applyEstimate_of_trip absent fresh trip platform second dest
          exact ⟨fun inside => by rw [run, if_pos ((window _).mpr inside), ← origin],
            fun outside => by rw [run, if_neg ((window _).not.mpr outside)]⟩
        · have run : cancel platform = _ := applyCancel_of_trip absent fresh trip platform
          exact ⟨fun inside => by rw [run, if_pos ((window _).mpr inside), ← origin],
            fun outside => by rw [run, if_neg ((window _).not.mpr outside)]⟩
        · simp only [State.applyDeparted, absent, fresh, trip, (window _).mpr inside, if_true]
          rfl
        · simp [State.applyDeparted, absent, fresh, trip, (window _).not.mpr outside]
      · refine ⟨fun platform second dest => ⟨fun inside => ?_, fun outside => ?_, ?_⟩, fun platform => ?_, ?_⟩
        · simp [estimate, State.applyEstimate, absent, fresh, unknown, (window _).mpr inside]
        · simp [estimate, State.applyEstimate, absent, fresh, unknown, (window _).not.mpr outside]
        · simp [estimate, State.applyEstimate, absent, fresh, unknown]
        · simp [cancel, State.applyCancel, absent, fresh, unknown]
        · simp [State.applyDeparted, absent, fresh, unknown]
  case layout =>
    intro byte two
    obtain ⟨length, each⟩ := predictsAt_getElem p n 0
    refine ⟨length, fun j hj => ?_⟩
    rw [each j hj, Nat.zero_add]
    rfl
  case windows =>
    intro hits
    have hit (i : Nat) : (s.cfg.window i).hits p.stop = true ↔ hits i := hits_iff _ _
    refine ⟨by simp only [admits_iff, hit], fun i low hits lowest => ?_, fun x => rfl⟩
    have first := firstHit_eq low ((hit i).mpr hits) fun j hj => (hit j).not.mpr (lowest j hj)
    have assigned : s.assignPlatform p = match (s.cfg.window i).platform with
        | some x => x
        | none => s.knownPlatform p.key := by
      rw [State.assignPlatform, first]
      rfl
    refine ⟨fun x given => by rw [assigned, given], fun keep => ?_⟩
    have known : s.assignPlatform p = s.knownPlatform p.key := by rw [assigned, keep]
    refine ⟨fun e found => ?_, fun absent => ⟨fun x q found => ?_, fun unknown => ?_⟩⟩
    · simp only [known, State.knownPlatform, found]
    · simp only [known, State.knownPlatform, absent, found]
    · simp only [known, State.knownPlatform, absent, unknown]
  case known =>
    intro trips
    have role (x : Role) : trips x = s.roleTrips x := (roleTrips_eq s x).symm
    refine ⟨fun x q found => ?_, ?_, fun e found => BoardInvariants.find_spec found,
      Refill.find_eq_none_iff, isGone_iff s.board k⟩
    · rw [role, role]
      exact findTrip_some found
    · simp only [role]
      exact findTrip_none s k
  case counts => rfl

end Sys2Proof.Predictions
end

section
/-! PROOFS. The stops of the part: what a cut write leaves in flash, and the values that stand until start-up. -/

namespace Sys2Proof.PowerLoss

open Sys2Proof.Machine

/-! ### A cut write (R41, R56, R99) -/

theorem cutWrite_idle {s : State} (h : s.link.write = none) : s.cutWrite.1 = s.flash := by rw [State.cutWrite, h]

theorem cutWrite_writing {s : State} {w : FlashWrite} (h : s.link.write = some w) :
    s.cutWrite.1 = s.flash.cut s.freeCount (s.store.upload.map (·.target)) w := by rw [State.cutWrite, h]

theorem cutItem_cases {α : Type} (n : Nat) : (cutItem n : Item α) = .erased ∨ (cutItem n : Item α) = .bad := by
  unfold cutItem
  split
  · exact .inl rfl
  · exact .inr rfl

/-! ### The three stops (R168, R193) -/

/-- A stop leaves the line at `low` and loses every block's state. -/
theorem exec_stop {s : State} {c : Instr} {phase : Phase} {cause : ResetCause} {low : Bool}
    (stop : (c = .powerLoss ∧ phase = .off ∧ cause = .power ∧ low = s.lineLow) ∨
      (c = .lineResetAssert ∧ s.phase ≠ .off ∧ phase = .held ∧ cause = .line ∧ low = true) ∨
      (∃ br1 br0 above mv celsius, c = .powerOnReset br1 br0 above mv celsius ∧ s.lineLow = true ∧ phase = .held ∧
        cause = .power ∧ low = true)) :
    exec c s = .next { s.dropped phase cause with lineLow := low } := by
  rcases stop with ⟨rfl, rfl, rfl, rfl⟩ | ⟨rfl, powered, rfl, rfl, rfl⟩ | ⟨_, _, _, _, _, rfl, line, rfl, rfl, rfl⟩
  · rfl
  · simp only [exec, execLineResetAssert, if_neg powered]
    rfl
  · simp only [exec, execPowerOnReset, line, if_true]
    rw [← line]
    rfl

/-- Settles O59: the flash that a stop leaves, the values of a cleared part, and the line without power. -/
theorem powerLossAndLineResetLoseTheState : Obligations.PowerLossAndLineResetLoseTheState := by
  refine ⟨fun s c phase cause low stop => ⟨s.cutWrite.1, s.cutWrite.2, exec_stop stop, cutWrite_idle,
    fun id v write => ?config, fun i w write => ?window, fun i d write => ?erase, fun i d write => ?filling, fun ts u write upload => ?block,
    fun i d n k m write => ?commit, fun id codes write => ?text, fun code g write => ?glyph⟩,
    fun flash phase cause => ?cleared, fun s => ⟨fun off => ?asserted, fun br1 br0 above mv celsius other => ?released⟩⟩
  case config => exact cutWrite_writing write
  case window => exact cutWrite_writing write
  case erase => exact ⟨_, cutWrite_writing write⟩
  case filling => exact cutWrite_writing write
  case block => exact ⟨_, (cutWrite_writing write).trans (by rw [upload]; rfl)⟩
  case commit => exact cutWrite_writing write
  case text => exact ⟨_, cutItem_cases _, cutWrite_writing write⟩
  case glyph => exact ⟨_, cutItem_cases _, cutWrite_writing write⟩
  case cleared =>
    refine ⟨rfl, rfl, fun stopped => ?_, rfl, rfl, rfl, rfl, rfl, rfl, rfl, rfl, List.length_replicate,
      List.length_replicate, rfl, rfl, rfl, rfl, rfl, fun x hx => List.eq_of_mem_replicate hx, fun x hx => List.eq_of_mem_replicate hx,
      fun x hx => List.eq_of_mem_replicate hx, rfl, rfl, rfl, rfl, rfl, rfl, rfl, rfl, rfl, rfl, rfl, rfl, rfl, rfl, rfl⟩
    rcases stopped with rfl | rfl <;> rfl
  case asserted => simp only [exec, execLineResetAssert, off, if_true, State.setLine]
  case released => simp only [exec, execLineResetRelease, if_neg other, State.setLine]

end Sys2Proof.PowerLoss
end

section
/-! PROOFS. The request reset: what the work behind it keeps, and the panel, the board and the rows that it forms afresh. -/

namespace Sys2Proof.RequestReset

open Sys2Proof.Machine

/-! ### Jobs that join now (R118, R122) -/

/-- Every job joined at this elapsed second. -/
def AllFresh (tm : TileMap) : Prop := ∀ j ∈ tm.jobs, j.enqueue = tm.elapsed

theorem spanJobs_fresh {band : JobClass} {old : List Job} {r : Nat} (spans : List (Nat × Nat)) {tm : TileMap}
    (fresh : ∀ o ∈ old, o.enqueue = tm.elapsed) :
    ∀ j ∈ Formation.spanJobs band old r tm spans, j.enqueue = tm.elapsed := by
  induction spans generalizing tm with
  | nil => exact fun j hj => by cases hj
  | cons p spans ih =>
    obtain ⟨f, l⟩ := p
    unfold Formation.spanJobs
    split
    · refine List.forall_mem_cons.mpr ⟨?_, ih (tm := tm.queueSpan band old r f l) fresh⟩
      obtain ⟨now, earliest⟩ := Formation.spanEnqueue_spec old tm.elapsed f l
      by_cases alone : (old.filter fun o => decide (o.first ≤ l) && decide (f ≤ o.last)) = []
      · exact now alone
      · obtain ⟨⟨o, ho, same⟩, -⟩ := earliest alone
        exact same.symm.trans (fresh o (List.mem_of_mem_filter ho))
    · exact fun j hj => by cases hj

theorem formRow_fresh {tm : TileMap} (fresh : AllFresh tm) (band : JobClass) (r : Nat) : AllFresh (tm.formRow band r).1 := by
  unfold AllFresh
  rw [formRow_elapsed]
  unfold TileMap.formRow
  split
  · exact fresh
  · dsimp only
    rw [Formation.queueSpans_eq]
    refine List.forall_mem_append.mpr ⟨fun j hj => fresh j (List.mem_of_mem_filter hj), ?_⟩
    exact spanJobs_fresh _ (tm := tm.removeJobs (Job.waitsInRow r)) fun o ho => fresh o (List.mem_of_mem_filter ho)

theorem formRows_fresh (band : JobClass) (rows : List Nat) {tm : TileMap} (fresh : AllFresh tm) :
    AllFresh (TileMap.formRows band tm rows).1 := by
  induction rows generalizing tm with
  | nil => exact fresh
  | cons r rows ih => exact ih (formRow_fresh fresh band r)

theorem queueClean_fresh {tm : TileMap} (fresh : AllFresh tm) : AllFresh tm.queueClean.1 := by
  unfold AllFresh
  rw [queueClean_elapsed]
  unfold TileMap.queueClean
  split
  · exact fresh
  · refine List.forall_mem_append.mpr ⟨fun j hj => fresh j (List.mem_of_mem_filter hj), fun j hj => ?_⟩
    rw [List.mem_singleton.mp hj]
    rfl

theorem testThreshold_fresh {tm : TileMap} (fresh : AllFresh tm) : AllFresh tm.testThreshold.1 := by
  unfold TileMap.testThreshold
  split
  · exact queueClean_fresh fresh
  · exact fresh

theorem changeJob_fresh {tm : TileMap} (fresh : AllFresh tm) (n : Nat) {f : Job → Job}
    (same : ∀ j, (f j).enqueue = j.enqueue) : AllFresh (tm.changeJob n f) := by
  intro j hj
  obtain ⟨k, hk, rfl⟩ := List.mem_map.mp hj
  split
  · exact (same k).trans (fresh k hk)
  · exact fresh k hk

/-! ### What the work behind the reset keeps -/

/-- From `s` to `t` the glass, a clean in the queue, the fresh jobs, and a drive in progress stay. -/
structure Reforms (s t : State) : Prop where
  glass : SameGlass s.tiles t.tiles
  cfg : t.cfg = s.cfg
  clean : s.tiles.hasClean = true → t.tiles.hasClean = true
  fresh : AllFresh s.tiles → AllFresh t.tiles
  driving : s.drive.booster = .driving → t.drive.booster = .driving ∧ t.drive.cutFrame = s.drive.cutFrame

theorem Reforms.refl (s : State) : Reforms s s := ⟨.refl _, rfl, id, id, fun h => ⟨h, rfl⟩⟩

theorem Reforms.trans {s t u : State} (h : Reforms s t) (k : Reforms t u) : Reforms s u := by
  refine ⟨h.glass.trans k.glass, k.cfg.trans h.cfg, fun c => k.clean (h.clean c), fun f => k.fresh (h.fresh f), fun d => ?_⟩
  obtain ⟨booster, frame⟩ := h.driving d
  exact (k.driving booster).imp_right fun e => e.trans frame

theorem Reforms.sizeDiffers {s t : State} (h : Reforms s t) : t.sizeDiffers = s.sizeDiffers := by
  simp only [State.sizeDiffers, h.cfg, h.glass.wt, h.glass.ht]

/-- Nothing of the panel changes. -/
theorem Reforms.of_same {s t : State} (tiles : t.tiles = s.tiles) (drive : t.drive = s.drive) (cfg : t.cfg = s.cfg) :
    Reforms s t := by
  refine ⟨?_, cfg, ?_, ?_, fun d => ?_⟩
  · rw [tiles]
    exact .refl _
  · rw [tiles]
    exact id
  · rw [tiles]
    exact id
  · rw [drive]
    exact ⟨d, rfl⟩

theorem startDrive_fresh {s : State} (h : AllFresh s.tiles) : AllFresh s.startDrive.tiles := by
  unfold State.startDrive
  split
  · exact h
  · exact changeJob_fresh h _ fun _ => rfl

theorem meetBooster_fresh {s : State} (h : AllFresh s.tiles) : AllFresh s.meetBooster.tiles := by
  have off (u : State) : u.meetOff.tiles = u.tiles := by
    unfold State.meetOff
    split <;> rfl
  have chosen : s.choose.2.tiles = s.tiles := by
    unfold State.choose
    split <;> rfl
  rcases meetBooster_cases s with e | e | e | e | e <;> rw [e]
  · exact h
  · rw [off]
    exact h
  · exact startDrive_fresh (by exact h)
  · rw [off]
    exact chosen.symm ▸ h
  · exact startDrive_fresh (s := { s.choose.2 with timers := _ }) (chosen.symm ▸ h)

/-- An attempt while no change of size is pending (R149, R152, R157). -/
theorem attempt_reforms {s : State} (size : s.sizeDiffers = false) : Reforms s s.attempt := by
  have work := attempt_grantWork size
  refine ⟨⟨work.wt, work.ht, by rw [work.tiles]⟩, work.cfg, StartUpEnd.attempt_hasClean, fun fresh => ?_,
    fun driving => ?_⟩
  all_goals
    cases choice : s.chooseJob with
    | none =>
      have same : s.attempt = s := by rw [State.attempt, choice]
      rw [same]
      first | exact fresh | exact ⟨driving, rfl⟩
    | some pick =>
      obtain ⟨j, band⟩ := pick
      rw [Grants.attempt_eq choice, applySize_same (s := Grants.granted s j band) (by exact size)]
      split
      · first | exact changeJob_fresh fresh _ fun _ => rfl | exact ⟨driving, rfl⟩
      · first
        | exact meetBooster_fresh (s := Grants.granted s j band) (changeJob_fresh fresh _ fun _ => rfl)
        | exact (PanelEvents.meetBooster_driving (s := Grants.granted s j band) driving).symm ▸ ⟨driving, rfl⟩

theorem choose_reforms (s : State) : Reforms s s.choose.2 := by
  unfold State.choose
  split
  · exact .refl s
  · exact .of_same rfl rfl rfl

theorem noteAttempt_reforms {s : State} (size : s.sizeDiffers = false) : Reforms s s.noteAttempt := by
  unfold State.noteAttempt
  split
  · exact (choose_reforms s).trans (attempt_reforms ((choose_reforms s).sizeDiffers.trans size))
  · exact (choose_reforms s).trans (.of_same rfl rfl rfl)

theorem settle_reforms {s : State} (size : s.sizeDiffers = false) : Reforms s s.settle := by
  unfold State.settle
  split
  · exact Reforms.trans (t := { s with attemptWaiting := false }) (.of_same rfl rfl rfl) (attempt_reforms size)
  · exact .refl s

/-- Formation of a row with its attempt (R120, R149). -/
theorem handOver_reforms {s : State} (size : s.sizeDiffers = false) (r : Nat) : Reforms s (s.handOver r) := by
  have formed : Reforms s (s.setTiles (s.tiles.formRow s.notices.jobClass r).1) :=
    ⟨formRow_sameGlass .., rfl, fun clean => StartUpEnd.formRow_hasClean clean .., fun fresh => formRow_fresh fresh _ _,
      fun d => ⟨d, rfl⟩⟩
  unfold State.handOver
  dsimp only
  split
  · exact formed.trans (noteAttempt_reforms (formed.sizeDiffers.trans size))
  · exact formed

theorem handOverAll_reforms (rows : List Nat) {s : State} (size : s.sizeDiffers = false) : Reforms s (s.handOverAll rows) := by
  induction rows generalizing s with
  | nil => exact .refl s
  | cons r rows ih =>
    have first := handOver_reforms size r
    exact first.trans (ih (first.sizeDiffers.trans size))

/-- Writing images changes no glass (R91). -/
theorem writeImages_glass (wt : Nat) (l : List (BandPart × List Nat × Nat)) (tiles : List Tile)
    (pixels : List (Option TilePixels)) : (writeImages wt tiles pixels l).1.map Tile.glass = tiles.map Tile.glass := by
  refine List.ext_getElem? fun k => ?_
  rw [List.getElem?_map, List.getElem?_map]
  cases before : tiles[k]? with
  | none =>
    rw [List.getElem?_eq_none_iff, ← writeImages_length wt l tiles pixels, ← List.getElem?_eq_none_iff] at before
    rw [before]
  | some t =>
    obtain ⟨w, after⟩ := Grants.writeImages_keeps wt l pixels before
    rw [after]
    rfl

theorem compose_reforms (s : State) (b : Bands) : Reforms s (s.compose b).1 := by
  obtain ⟨wt, ht⟩ := compose_geometry s b
  have tiles : (s.evaluated b).tiles = s.tiles := by
    unfold State.evaluated
    split <;> rfl
  have glass : (s.compose b).1.tiles.tiles.map Tile.glass = s.tiles.tiles.map Tile.glass := by
    rw [← tiles]
    exact writeImages_glass (s.evaluated b).tiles.wt _ _ (s.evaluated b).composer.pixels
  obtain ⟨faults, rows, pixels, tiles, composed⟩ := StepInvariants.compose_eq s b
  rw [composed] at wt ht glass ⊢
  exact ⟨⟨wt, ht, glass⟩, rfl, id, id, fun d => ⟨d, rfl⟩⟩

theorem recompose_reforms {s : State} (size : s.sizeDiffers = false) (b : Bands) : Reforms s (s.recompose b) := by
  have first := compose_reforms s b
  exact first.trans (handOverAll_reforms _ (first.sizeDiffers.trans size))

/-- A takeover of the Tile Map with its attempt, from the Tile Map taken over on. -/
theorem takeTiles_reforms {s : State} {a : TileMap × Bool} (size : (s.setTiles a.1).sizeDiffers = false) :
    Reforms (s.setTiles a.1) (s.takeTiles a) ∧ Samples.Debits (s.setTiles a.1) (s.takeTiles a) ∧
      (s.takeTiles a).composer = s.composer := by
  unfold State.takeTiles
  split
  · exact ⟨noteAttempt_reforms size, Samples.noteAttempt_debits _, (noteAttempt_grantWork size).composer⟩
  · exact ⟨.refl _, .refl _, rfl⟩

/-! ### The Tile Map's steps (R135) -/

/-- The tiles of a cut drive's span are UNKNOWN and clear-due, and no tile is in a job (R135). -/
def cutTiles (tm : TileMap) : List Tile :=
  ((match tm.jobs.find? fun j => j.state == .driving with
    | none => tm.tiles
    | some j => abortTiles j tm.wt none tm.tiles) : List Tile).map fun t => { t with job := none }

/-- The Tile Map with the queue emptied, before it forms its rows afresh (R135). -/
def emptied (tm : TileMap) : TileMap := { tm with jobs := [], tiles := cutTiles tm }

/-- What a request reset makes of the glass, the clean and the jobs: those of the emptied queue, formed afresh (R135). -/
theorem requestReset_spec (tm : TileMap) (band : JobClass) :
    SameGlass (emptied tm) (tm.requestReset band).1 ∧ AllFresh (tm.requestReset band).1 ∧
      (tm.hasClean = true → (tm.requestReset band).1.hasClean = true) := by
  have none_yet : AllFresh (emptied tm) := fun j hj => by cases hj
  have start : SameGlass (emptied tm) (if tm.hasClean then (emptied tm).queueClean else (emptied tm, false)).1 ∧
      AllFresh (if tm.hasClean then (emptied tm).queueClean else (emptied tm, false)).1 ∧
      (tm.hasClean = true → (if tm.hasClean then (emptied tm).queueClean else (emptied tm, false)).1.hasClean = true) := by
    split
    · exact ⟨queueClean_sameGlass _, queueClean_fresh none_yet, fun _ => queueClean_hasClean _⟩
    · next none => exact ⟨.refl _, none_yet, fun clean => absurd clean none⟩
  have run : (tm.requestReset band).1 = (TileMap.formRows band
      (if tm.hasClean then (emptied tm).queueClean else (emptied tm, false)).1.testThreshold.1
      (if tm.hasClean then (emptied tm).queueClean else (emptied tm, false)).1.testThreshold.1.allRows).1 := rfl
  rw [run]
  generalize (if tm.hasClean then (emptied tm).queueClean else (emptied tm, false)).1 = b at start
  obtain ⟨glass, fresh, clean⟩ := start
  refine ⟨glass.trans ((testThreshold_sameGlass b).trans (formRows_sameGlass ..)),
    formRows_fresh band _ (testThreshold_fresh fresh), fun had => StartUpEnd.formRows_hasClean ?_ _ _⟩
  rw [TileMap.testThreshold]
  split
  · exact queueClean_hasClean b
  · exact clean had

theorem cutTiles_length (tm : TileMap) : (cutTiles tm).length = tm.tiles.length := by
  unfold cutTiles
  rw [List.length_map]
  split
  · rfl
  · exact mapTiles_length _ _ _

/-- A tile of the emptied queue. -/
theorem cutTiles_tile (tm : TileMap) (i : Nat) (a : Tile) (h : tm.tiles[i]? = some a) : ∃ x, (cutTiles tm)[i]? = some x ∧
    x.ghost = a.ghost ∧
    (∀ j, tm.jobs.find? (fun x => x.state == .driving) = some j → j.covers tm.wt i = true →
      x.shown = none ∧ x.clearDue = true) ∧
    ((∀ j ∈ tm.jobs, j.state = .driving → j.covers tm.wt i = false) → x.shown = a.shown ∧ x.clearDue = a.clearDue) := by
  unfold cutTiles
  cases cut : tm.jobs.find? fun j => j.state == .driving with
  | none => exact ⟨{ a with job := none }, by simp [h], rfl, nofun, fun _ => ⟨rfl, rfl⟩⟩
  | some j =>
    have driving : j.state = .driving := by simpa using List.find?_some cut
    refine ⟨{ (if j.covers tm.wt i then { a with shown := none, clearDue := true, job := none } else a) with job := none },
      by simp [abortTiles_tile, h], ?_, fun k same covers => ?_, fun apart => ?_⟩
    · split <;> rfl
    · cases same
      rw [if_pos covers]
      exact ⟨rfl, rfl⟩
    · rw [if_neg (by simp [apart j (List.mem_of_find?_eq_some cut) driving])]
      exact ⟨rfl, rfl⟩

/-! ### The rows (R93) -/

/-- Rows evaluated from planned entries count down none (R77). -/
theorem evaluate_planned {s : State} (planned : ∀ e ∈ s.board.entries, e.state = .planned) :
    ∀ x ∈ s.evaluate, ∀ k v p, x ≠ .countdown k v p := by
  have message (m : MessageText) (l : List RowRecord) : ∀ x ∈ messageRows m l, ∀ k v p, x ≠ .countdown k v p := by
    cases l with
    | nil => exact fun x hx => by cases hx
    | cons r rs => simp [messageRows]
  have rows (now : Int) (d p : Nat) (c : Bool) (l : List RowRecord) (es : List Entry) (h : ∀ e ∈ es, e.state = .planned) :
      ∀ x ∈ evaluateRows now d p c l es, ∀ k v p, x ≠ .countdown k v p := by
    induction l generalizing es with
    | nil => exact fun x hx => by cases hx
    | cons r rs ih =>
      cases es with
      | nil => exact List.forall_mem_cons.mpr ⟨nofun, ih [] nofun⟩
      | cons e es =>
        refine List.forall_mem_cons.mpr ⟨?_, ih es fun x hx => h x (List.mem_cons_of_mem e hx)⟩
        simp only [evaluateEntry, h e List.mem_cons_self]
        nofun
  unfold State.evaluate
  split
  · exact message _ _
  · split
    · exact message _ _
    · exact rows _ _ _ _ _ _ planned

/-! ### What the blocks clear (R43, R71, R115, R154, R167, R182, R192) -/

/-- Every block but the Panel Drive and the timers after its clearing. -/
theorem resetBlocks_eq (s : State) : s.resetBlocks = { s with
    link := { s.link with
      requests := [], write := none, resetAfter := none, replies := s.link.replies.drop (s.link.resetAfter.getD 0) }
    store := s.store.abort
    resetRoles := ⟨none, none⟩
    faults := ⟨0, none, none, 0, 0, .request⟩
    notices := ⟨[], none⟩
    energy := { s.energy with lowFlag := false }
    composer := { s.composer with rows := s.composer.rows.map RowRecord.clearPending }
    timers := s.resetBlocks.timers
    drive := s.resetBlocks.drive } := by
  unfold State.resetBlocks State.resetDrive
  dsimp only [State.abortUpload]
  split <;> rfl

theorem resetBlocks_timers (s : State) : s.resetBlocks.timers.sweep = s.timers.sweep.start ∧
    s.resetBlocks.timers.sample = s.timers.sample.start ∧ s.resetBlocks.timers.rotation = s.timers.rotation.start ∧
    s.resetBlocks.timers.upload = s.timers.upload.stop ∧
    (s.drive.booster = .rising → s.resetBlocks.timers.retry.running = false) := by
  unfold State.resetBlocks State.resetDrive
  dsimp only [State.abortUpload]
  cases s.drive.booster <;> exact ⟨rfl, rfl, rfl, rfl, fun _ => rfl⟩

theorem resetBlocks_driving {s : State} (h : s.drive.booster = .driving) :
    s.resetBlocks.drive.booster = .driving ∧ s.resetBlocks.drive.cutFrame = true := by
  unfold State.resetBlocks State.resetDrive
  dsimp only [State.abortUpload]
  rw [h]
  exact ⟨rfl, rfl⟩

theorem storeAbort_eq (st : Store) : st.abort = match st.upload with
    | none => st
    | some u => { st.setBank u.target { st.bank u.target with state := .free, role := none } with upload := none } := rfl

/-! ### The command (R192) -/

theorem exec_requestReset_of_waiting {s : State} (after : s.link.resetAfter.isSome = true)
    (first : .requestReset ∉ s.drive.held) : exec .requestReset s = .next (s.driveEvent .requestReset).settle := by
  have fresh : s.drive.held.contains .requestReset = false := by simpa using first
  simp only [exec, execRequestReset, after, fresh, Bool.not_false, Bool.and_self, if_true]

/-- The state in which the Tile Map and the Composer take their part: the blocks cleared and the board rebuilt (R43, R192). -/
def cleared (s : State) : State := s.resetBlocks.rebuildFrom s.resetRoles

theorem cleared_eq (s : State) : cleared s = { s.resetBlocks with
    board := (s.rebuildFrom s.resetRoles).board, faults := (cleared s).faults } := by
  have same : s.resetBlocks.cfg = s.cfg ∧ s.resetBlocks.clock = s.clock ∧ s.resetBlocks.flash = s.flash := by
    rw [resetBlocks_eq]
    exact ⟨rfl, rfl, rfl⟩
  obtain ⟨cfg, clock, flash⟩ := same
  rw [← Refill.rebuildFrom_board_alike cfg clock flash]
  exact (rebuildFrom_boardWork s.resetBlocks s.resetRoles).others

/-- The Tile Map's part (R135). -/
def emptiedAndFormed (c : State) : State := c.takeTiles (c.tiles.requestReset c.notices.jobClass)

/-- Everything behind the clearing, to the end of the step (R93, R135, R149). -/
def formedAfresh (c : State) : State := (((emptiedAndFormed c).recompose rowBands).recompose allBands).settle

section Formed

variable {c : State}

/-- The Tile Map that the part's work goes on from (R135). -/
def emptyQueue (c : State) : State := c.setTiles (c.tiles.requestReset c.notices.jobClass).1

theorem emptyQueue_size (size : c.sizeDiffers = false) : (emptyQueue c).sizeDiffers = false := by
  obtain ⟨glass, -⟩ := requestReset_spec c.tiles c.notices.jobClass
  rw [← size]
  simp only [State.sizeDiffers, emptyQueue, State.setTiles, glass.wt, glass.ht]
  rfl

theorem formedAfresh_work (c : State) : PanelWork c (formedAfresh c) ∧ ContentWork c (formedAfresh c) :=
  ⟨(((takeTiles_panelWork c _ (requestReset_elapsed ..)).trans (recompose_panelWork _ rowBands)).trans
      (recompose_panelWork _ allBands)).trans (settle_panelWork _),
    (((takeTiles_contentWork c _).trans (recompose_contentWork _ rowBands)).trans (recompose_contentWork _ allBands)).trans
      (settle_contentWork _)⟩

theorem formedAfresh_reforms (size : c.sizeDiffers = false) :
    Reforms (emptyQueue c) (formedAfresh c) ∧ (formedAfresh c).energy.estimate ≤ c.energy.estimate := by
  have start := emptyQueue_size size
  obtain ⟨taken, debits, -⟩ := takeTiles_reforms (s := c) (a := c.tiles.requestReset c.notices.jobClass) start
  have rows := taken.trans (recompose_reforms (taken.sizeDiffers.trans start) rowBands)
  have all := rows.trans (recompose_reforms (rows.sizeDiffers.trans start) allBands)
  refine ⟨all.trans (settle_reforms (all.sizeDiffers.trans start)), ?_⟩
  have chain : Samples.Debits (emptyQueue c) (formedAfresh c) := debits.trans ((Samples.recompose_debits _ rowBands).trans
    ((Samples.recompose_debits _ allBands).trans (Samples.settle_debits _)))
  exact chain.le

/-- The rows after the two recompositions are evaluated, and count down none where every entry is planned (R77, R93). -/
theorem formedAfresh_rows (size : c.sizeDiffers = false) (planned : ∀ e ∈ c.board.entries, e.state = .planned) :
    (formedAfresh c).composer.rows.length = c.composer.rows.length ∧
      ∀ x ∈ (formedAfresh c).composer.rows, ∀ k v p, x ≠ .countdown k v p := by
  have start := emptyQueue_size size
  obtain ⟨taken, -, composer⟩ := takeTiles_reforms (s := c) (a := c.tiles.requestReset c.notices.jobClass) start
  obtain ⟨first, size'⟩ := recompose_rows (taken.sizeDiffers.trans start) rowBands
  obtain ⟨second, size''⟩ := recompose_rows size' allBands
  rw [if_pos (by rfl)] at first second
  have settled := (settle_grantWork size'').composer
  have rows : (formedAfresh c).composer.rows = State.evaluate ((emptiedAndFormed c).recompose rowBands) := by
    unfold formedAfresh emptiedAndFormed
    rw [settled, second]
  have formed : PanelWork c (emptiedAndFormed c) := takeTiles_panelWork c _ (requestReset_elapsed ..)
  have board := (formed.trans (recompose_panelWork _ rowBands)).board
  rw [← board] at planned
  have none_counts := evaluate_planned planned
  rw [rows, evaluate_length]
  refine ⟨?_, none_counts⟩
  exact (congrArg List.length first).trans ((evaluate_length _).trans (congrArg (fun x => x.rows.length) composer))

end Formed

/-! ### The board (R10, R22, R43) -/

/-- The trips of a bank, or none of no bank. -/
theorem mem_offers (s : State) (r : Roles) (x : Role) (p : Trip) : (x, p) ∈ Refill.offers s r ↔
    p ∈ s.bankTrips (if x = .current then r.current else r.next) := by
  cases x <;> simp [Refill.offers]

theorem offers_length (s : State) (r : Roles) :
    (Refill.offers s r).length = (s.bankTrips r.current).length + (s.bankTrips r.next).length := by
  simp [Refill.offers]

/-- A rebuild puts planned entries of the trips offered on the board, and where there is room all of them (R10, R22). -/
theorem rebuildFrom_spec {s : State} {u : ClockTime} (time : s.clock.time = some u) (r : Roles) :
    let offered (x : Role) (p : Trip) : Prop :=
      p ∈ s.bankTrips (if x = .current then r.current else r.next) ∧ (u.second : Int) - s.cfg.param 7 ≤ p.sched x ∧
        p.sched x ≤ u.second + s.cfg.param 6 * 60 ∧ (s.cfg.param 4).testBit p.platform = true
    (∀ e ∈ (s.rebuildFrom r).board.entries, ∃ x p, offered x p ∧ e = Refill.planned (x, p)) ∧
    ((s.bankTrips r.current).length + (s.bankTrips r.next).length ≤ 32 →
      ∀ x p, offered x p → ∃ e ∈ (s.rebuildFrom r).board.entries, e.key = p.key) := by
  intro offered
  have running : (s.setBoard ⟨[], []⟩).clockRunning = true := by
    rw [State.clockRunning]
    exact Option.isSome_iff_exists.mpr ⟨u, time⟩
  have same : s.rebuildFrom r =
      ((Refill.offers (s.setBoard ⟨[], []⟩) r).foldl Refill.offer (s.setBoard ⟨[], []⟩, false)).1 :=
    congrArg Prod.fst (Refill.refillFrom_eq running r)
  have offer_iff (x : Role) (p : Trip) : offered x p ↔ (x, p) ∈ Refill.offers (s.setBoard ⟨[], []⟩) r ∧
      Refill.wanted (s.setBoard ⟨[], []⟩) (x, p) = true := by
    rw [mem_offers, Rounds.wanted_iff (s := s.setBoard ⟨[], []⟩) (by exact time)]
    exact ⟨fun ⟨there, early, late, shown⟩ => ⟨there, early, late, shown, rfl⟩,
      fun ⟨there, early, late, shown, _⟩ => ⟨there, early, late, shown⟩⟩
  obtain ⟨-, -, entries⟩ := Refill.offers_spec (Refill.offers (s.setBoard ⟨[], []⟩) r) (s.setBoard ⟨[], []⟩, false)
  refine ⟨fun e he => ?_, fun room x p h => ?_⟩
  · rw [same] at he
    rcases entries e he with old | ⟨⟨x, p⟩, there, want, rfl⟩
    · cases old
    · exact ⟨x, p, (offer_iff x p).mpr ⟨there, want⟩, rfl⟩
  · obtain ⟨-, -, added⟩ := Refill.offers_of_room (Refill.offers (s.setBoard ⟨[], []⟩) r)
        (a := (s.setBoard ⟨[], []⟩, false)) (by
      rw [offers_length]
      exact (Nat.zero_add _).trans_le room)
    rw [same]
    obtain ⟨there, want⟩ := (offer_iff x p).mp h
    exact added (x, p) there want

theorem rebuildFrom_unset {s : State} (time : s.clock.time = none) (r : Roles) : (s.rebuildFrom r).board = ⟨[], []⟩ := by
  unfold State.rebuildFrom
  rw [Refill.refillFrom_unset]
  · rfl
  · rw [State.clockRunning]
    exact Option.isSome_eq_false_iff.mpr (Option.isNone_iff_eq_none.mpr time)

theorem rebuildFrom_planned (s : State) (r : Roles) : ∀ e ∈ (s.rebuildFrom r).board.entries, e.state = .planned := by
  intro e he
  cases time : s.clock.time with
  | none =>
    rw [rebuildFrom_unset time] at he
    cases he
  | some u =>
    obtain ⟨x, p, -, rfl⟩ := (rebuildFrom_spec time r).1 e he
    rfl

/-- Settles O60: the two cases in which nothing is reset yet, and what stands at the end of the reset. -/
theorem requestResetClearsAndKeeps : Obligations.RequestResetClearsAndKeeps := by
  refine ⟨fun s waiting => ⟨fun idle => ?idle, fun after exchange first => ?waits⟩,
    fun s n after exchange held waiting size => ?resets⟩
  case idle => simp [exec, execRequestReset, idle]
  case waits =>
    rw [exec_requestReset_of_waiting (Option.isSome_iff_ne_none.mpr after) first, PanelEvents.driveEvent_of_exchange exchange,
      settle_of_not_waiting (by exact waiting)]
    rfl
  case resets =>
    have run : exec .requestReset s = .next (formedAfresh (cleared s)) := by
      rw [exec_requestReset_of_waiting (by rw [after]; rfl) (by rw [held]; nofun), PanelEvents.driveEvent_of_no_exchange exchange]
      rfl
    generalize eq : cleared s = c at run
    have cleared := eq ▸ cleared_eq s
    rw [resetBlocks_eq] at cleared
    have csize : c.sizeDiffers = false := by
      rw [cleared]
      exact size
    obtain ⟨work, content⟩ := formedAfresh_work c
    obtain ⟨reforms, debit⟩ := formedAfresh_reforms csize
    have board : c.board = (s.rebuildFrom s.resetRoles).board := by rw [cleared]
    obtain ⟨length, rows⟩ := formedAfresh_rows csize (by rw [board]; exact rebuildFrom_planned s _)
    obtain ⟨emptied, fresh, clean⟩ := requestReset_spec c.tiles c.notices.jobClass
    have glass := emptied.trans reforms.glass
    have tiles : c.tiles = s.tiles := by rw [cleared]
    rw [tiles] at glass fresh clean
    obtain ⟨sweep, sample, rotation, upload, retry⟩ := resetBlocks_timers s
    have before : ContentWork s.resetBlocks c := eq ▸ rebuildFrom_contentWork s.resetBlocks s.resetRoles
    obtain ⟨clock, codes, contents, raised⟩ := before.trans content
    rw [resetBlocks_eq] at clock raised
    have timers : (formedAfresh c).timers = { s.resetBlocks.timers with
        rise := (formedAfresh c).timers.rise, linger := (formedAfresh c).timers.linger } := by
      rw [work.timers, cleared]
    have elapsed : (s.tiles.requestReset c.notices.jobClass).1.elapsed = s.tiles.elapsed := requestReset_elapsed ..
    have drive : (emptyQueue c).drive = s.resetBlocks.drive := show c.drive = _ by rw [cleared]
    have formed : (emptyQueue c).tiles = (s.tiles.requestReset c.notices.jobClass).1 := 
      congrArg (fun m => (TileMap.requestReset m c.notices.jobClass).1) tiles
    refine ⟨_, codes, run, ?phase, ?lineLow, ?link, contents, raised, ?notices, ?store, clock, ?cfg, ?flash, ?presence, ?roles,
      ?board, ?gone, fun unset => ?unset, fun u time => ?offered, ?length, rows, glass.wt, glass.ht, ?elapsed, ?count,
      fun j hj => ?fresh, fun had => ?clean, fun i a b ha hb => ?tile, ?energy, ?estimate, ?sweep, ?sample, ?rotation, ?upload,
      fun driving => ?driving, fun rising => ?rising⟩
    case phase => rw [work.phase, cleared]
    case lineLow => rw [work.lineLow, cleared]
    case link =>
      rw [work.link, cleared, after]
      rfl
    case notices => rw [work.notices, cleared]
    case store =>
      rw [work.store, cleared]
      exact storeAbort_eq s.store
    case cfg => rw [work.cfg, cleared]
    case flash => rw [work.flash, cleared]
    case presence => rw [work.presence, cleared]
    case roles => rw [work.resetRoles, cleared]
    case board => rw [work.board, board]
    case gone => rw [work.board, board, Refill.rebuildFrom_gone]
    case unset => rw [work.board, board, rebuildFrom_unset unset]
    case offered =>
      intro held offered
      obtain ⟨entries, room⟩ := rebuildFrom_spec time s.resetRoles
      have same (x : Role) : held x = s.bankTrips (if x = .current then s.resetRoles.current else s.resetRoles.next) := by
        unfold held State.bankTrips
        generalize (if x = Role.current then s.resetRoles.current else s.resetRoles.next) = i
        cases i with
        | none => rfl
        | some i => cases i <;> rfl
      rw [work.board, board]
      refine ⟨fun e he => ?_, fun few x p h => ?_⟩
      · obtain ⟨x, p, h, rfl⟩ := entries e he
        exact ⟨x, p, by unfold offered; rw [same]; exact h, by cases x <;> rfl⟩
      · refine room ?_ x p (by unfold offered at h; rw [same] at h; exact h)
        rw [same, same] at few
        exact few
    case length => rw [length, cleared, List.length_map]
    case elapsed => rw [work.elapsed, tiles]
    case count => exact glass.length.trans (cutTiles_length s.tiles)
    case fresh =>
      rw [reforms.fresh (by rw [formed]; exact fresh) j hj, work.elapsed, tiles]
    case clean =>
      refine reforms.clean ?_
      rw [formed]
      exact clean had
    case tile =>
      obtain ⟨x, there, ghost, covered, apart⟩ := cutTiles_tile s.tiles i a ha
      obtain ⟨shown', ghost', due'⟩ := glass.tile (x := x) (by exact there) hb
      rw [shown', ghost', due']
      exact ⟨ghost, covered, apart⟩
    case energy =>
      rw [work.energy, cleared]
    case estimate =>
      refine debit.trans ?_
      rw [cleared]
    case sweep => rw [timers, ← sweep]
    case sample => rw [timers, ← sample]
    case rotation => rw [timers, ← rotation]
    case upload => rw [timers, ← upload]
    case driving =>
      obtain ⟨booster, frame⟩ := resetBlocks_driving driving
      obtain ⟨booster', frame'⟩ := reforms.driving (by rw [drive, booster])
      exact ⟨booster', frame'.trans (by rw [drive, frame])⟩
    case rising => rw [timers, ← retry rising]

end Sys2Proof.RequestReset
end

section
/-! PROOFS. The Composer at a sweep: each row's record, the rendering of a field from its codes, and the tiles' images. -/

namespace Sys2Proof.SweepRows

open Sys2Proof.Machine
open Sys2Proof.TablePuts (Ready)

/-! ### A row's record (R76 to R81) -/

theorem conserveValue_eq (conserve : Bool) (m : Nat) :
    conserveValue conserve m = if conserve = true ∧ 10 ≤ m then m / 5 * 5 else m := by
  simp only [conserveValue, Bool.and_eq_true, decide_eq_true_eq]

theorem countdownStep_eq (conserve : Bool) (v : Nat) :
    countdownStep conserve v = if conserve = true ∧ 10 ≤ v then 5 else 1 := by
  simp only [countdownStep, Bool.and_eq_true, decide_eq_true_eq]

/-- A record that counts down for the same key confirms, holds or follows (R80). -/
theorem settleCountdown_same (conserve : Bool) (key : Key) (v n : Nat) (p : Option Nat) :
    let next := v + if conserve = true ∧ 10 ≤ v then 5 else 1
    let new := settleCountdown conserve (.countdown key v p) key n
    (p = some n → new = .countdown key n none) ∧
      (p ≠ some n → n = next → new = .countdown key v (some n)) ∧
      (p ≠ some n → n ≠ next → new = .countdown key n none) := by
  simp only [settleCountdown, countdownStep_eq, if_true]
  exact ⟨fun same => if_pos same, fun other step => by rw [if_neg other, if_pos step],
    fun other step => by rw [if_neg other, if_neg step]⟩

/-- Any other record takes the computed value (R81). -/
theorem settleCountdown_fresh {conserve : Bool} {old : RowRecord} {key : Key}
    (other : ∀ v p, old ≠ .countdown key v p) (n : Nat) :
    settleCountdown conserve old key n = .countdown key n none := by
  unfold settleCountdown
  split
  case h_1 k v p =>
    exact if_neg fun same : k = key => other v p (same ▸ rfl)
  case h_2 => rfl

section Entry

variable {now : Int} {d threshold : Nat} {conserve : Bool} {old : RowRecord} {e : Entry}

theorem evaluateEntry_cancelled (h : e.state = .cancelled) : evaluateEntry now d threshold conserve old e = .cancelled e.key := by
  simp only [evaluateEntry, h]

theorem evaluateEntry_clockTime (h : e.state = .planned ∨ e.state = .lapsed) :
    evaluateEntry now d threshold conserve old e = .clockTime e.key (wallMinuteOf e.effective d) := by
  rcases h with h | h <;> simp only [evaluateEntry, h]

theorem evaluateEntry_due (live : e.state = .live) (near : e.effective - now < 30) :
    evaluateEntry now d threshold conserve old e = .due e.key := by
  simp only [evaluateEntry, live, if_pos near]

theorem evaluateEntry_late (live : e.state = .live) (far : 30 ≤ e.effective - now)
    (late : threshold < countdownMinutes (e.effective - now)) :
    evaluateEntry now d threshold conserve old e = .clockTime e.key (wallMinuteOf e.effective d) := by
  simp only [evaluateEntry, live, if_neg (Int.not_lt.mpr far), if_pos late]

theorem evaluateEntry_counting (live : e.state = .live) (far : 30 ≤ e.effective - now)
    (counts : countdownMinutes (e.effective - now) ≤ threshold) :
    evaluateEntry now d threshold conserve old e =
      settleCountdown conserve old e.key (conserveValue conserve (countdownMinutes (e.effective - now))) := by
  simp only [evaluateEntry, live, if_neg (Int.not_lt.mpr far), if_neg (Nat.not_lt.mpr counts)]

end Entry

/-- The record of row `k` after an evaluation (R76). -/
theorem evaluate_row (s : State) (k : Nat) :
    s.evaluate[k]? = s.composer.rows[k]?.map fun old =>
      match s.clock.time with
      | none => if k = 0 then .message .timeUnknown else .empty
      | some u =>
        if s.board.entries.isEmpty then (if k = 0 then .message .noDepartures else .empty)
        else match s.board.entries[k]? with
          | none => .empty
          | some e => evaluateEntry u.second u.dayStart (s.cfg.param 9) s.energy.conserve old e := by
  unfold State.evaluate
  cases s.clock.time with
  | none => exact messageRows_row ..
  | some u =>
    by_cases empty : s.board.entries.isEmpty = true
    · simp only [if_pos empty]
      exact messageRows_row ..
    · simp only [if_neg empty]
      exact evaluateRows_row ..

/-! ### Resolution and the line (R102, R104, R105) -/

/-- Each code resolves to its glyph, else to glyph 0, else to the blank advance (R102). -/
theorem resolve_spec (s : State) (code : Nat) :
    (∀ g, s.glyphEntry code = some g → s.resolve code = g) ∧
      (∀ g, s.glyphEntry code = none → s.glyphEntry 0 = some g → s.resolve code = g) ∧
      (s.glyphEntry code = none → s.glyphEntry 0 = none → s.resolve code = ⟨8, []⟩) := by
  refine ⟨fun g there => ?_, fun g absent zero => ?_, fun absent zero => ?_⟩
  · simp only [State.resolve, there]
  · simp only [State.resolve, absent, zero, Option.getD_some]
  · simp only [State.resolve, absent, zero, Option.getD_none, blankAdvance]

/-- The run within a width is a leading run, and the glyph that follows it has no room (R104). -/
theorem runWithin_spec (room : Nat) (gs : List Glyph) :
    ∃ rest, gs = runWithin room gs ++ rest ∧
      ∀ g tail, rest = g :: tail → room < totalWidth (runWithin room gs) + g.width := by
  induction gs generalizing room with
  | nil => exact ⟨[], rfl, nofun⟩
  | cons g gs ih =>
    by_cases fits : g.width ≤ room
    · obtain ⟨rest, split, next⟩ := ih (room - g.width)
      have run : runWithin room (g :: gs) = g :: runWithin (room - g.width) gs := if_pos fits
      refine ⟨rest, by rw [run, List.cons_append, ← split], fun x tail e => ?_⟩
      have := next x tail e
      rw [run, totalWidth]
      omega
    · have run : runWithin room (g :: gs) = [] := if_neg fits
      refine ⟨g :: gs, by rw [run]; rfl, fun x tail e => ?_⟩
      obtain ⟨rfl, -⟩ := List.cons.inj e
      rw [run, totalWidth]
      omega

/-- A line that fits stays; any other is cut where the ellipsis still fits (R104). -/
theorem fitLine_spec {available : Nat} {ellipsis : Glyph} (gs : List Glyph) (narrow : ellipsis.width ≤ available) :
    (totalWidth gs ≤ available → fitLine available ellipsis gs = gs) ∧
      (available < totalWidth gs →
        ∃ run rest, gs = run ++ rest ∧ fitLine available ellipsis gs = run ++ [ellipsis] ∧
          totalWidth run + ellipsis.width ≤ available ∧
          ∀ g tail, rest = g :: tail → available < totalWidth run + g.width + ellipsis.width) := by
  refine ⟨fun fits => if_pos fits, fun wide => ?_⟩
  obtain ⟨rest, split, next⟩ := runWithin_spec (available - ellipsis.width) gs
  have room := runWithin_width (available - ellipsis.width) gs
  refine ⟨_, rest, split, if_neg (by omega), by omega, fun g tail e => ?_⟩
  have := next g tail e
  omega

/-- The glyphs stand in pixel rows 6 to 33 of a line (R105). -/
theorem drawLine_getD (w : Nat) (right : Bool) (gs : List Glyph) (k : Nat) :
    (drawLine w right gs).getD k 0 =
      if 6 ≤ k ∧ k < 34 then drawRow w (k - 6) (if right then w - 4 - totalWidth gs else 4) gs else 0 := by
  rw [drawLine, List.getD_eq_getElem?_getD]
  by_cases above : k < 6
  · have out : ¬(6 ≤ k ∧ k < 34) := by omega
    rw [if_neg out, List.append_assoc, List.getElem?_append_left (by simpa using above), List.getElem?_replicate_of_lt above]
    rfl
  · by_cases inside : k < 34
    · have within : 6 ≤ k ∧ k < 34 := by omega
      rw [if_pos within, List.getElem?_append_left (by simp; omega), List.getElem?_append_right (by simp; omega)]
      simp only [List.length_replicate, List.getElem?_map, List.getElem?_range (show k - 6 < 28 by omega), Option.map_some,
        Option.getD_some]
    · have out : ¬(6 ≤ k ∧ k < 34) := by omega
      rw [if_neg out, List.getElem?_append_right (by simp; omega)]
      generalize k - _ = n
      rw [List.getElem?_replicate]
      by_cases h : n < 6
      · rw [if_pos h, Option.getD_some]
      · rw [if_neg h, Option.getD_none]

/-- A pixel of a glyph's row, the leftmost being the most significant bit (R94, R105). -/
theorem rowBits_testBit {g : Glyph} (narrow : g.width ≤ 40) (r : Nat) {q : Nat} (h : q < g.width) :
    (g.rowBits r).testBit (g.width - 1 - q) = (g.rows.getD r 0).getMsbD q := by
  rw [Glyph.rowBits, Nat.testBit_div_two_pow, BitVec.getMsbD_eq_getLsbD, decide_eq_true (by omega), Bool.true_and, BitVec.getLsbD]
  congr 1
  omega

/-- A pixel of a row is that of the glyph that lies there (R105). -/
theorem drawRow_pixel {w r p : Nat} (gs : List Glyph) (narrow : ∀ g ∈ gs, g.width ≤ 40) (inside : p < w) {x : Nat}
    (fits : x + totalWidth gs ≤ w) :
    (drawRow w r x gs).testBit (w - 1 - p) = true ↔
      ∃ before g after, gs = before ++ g :: after ∧ x + totalWidth before ≤ p ∧
        p < x + totalWidth before + g.width ∧ (g.rows.getD r 0).getMsbD (p - x - totalWidth before) = true := by
  induction gs generalizing x with
  | nil => simp [drawRow]
  | cons g gs ih =>
    have narrow' : ∀ y ∈ gs, y.width ≤ 40 := fun y hy => narrow y (List.mem_cons_of_mem _ hy)
    have here := narrow g List.mem_cons_self
    rw [totalWidth] at fits
    have tail := drawRow_lt w r gs narrow' (x + g.width) (by omega)
    rw [show w - (x + g.width) = w - x - g.width by omega] at tail
    rw [drawRow, Nat.mul_comm, Nat.testBit_two_pow_mul_add _ tail]
    by_cases beyond : x + g.width ≤ p
    · rw [if_pos (by omega), ih narrow' (by omega)]
      constructor
      · rintro ⟨before, y, after, rfl, low, high, bit⟩
        refine ⟨g :: before, y, after, rfl, ?_, ?_, ?_⟩ <;> rw [totalWidth]
        · omega
        · omega
        · rwa [show p - x - (g.width + totalWidth before) = p - (x + g.width) - totalWidth before by omega]
      · rintro ⟨before, y, after, split, low, high, bit⟩
        cases before with
        | nil =>
          obtain ⟨rfl, -⟩ := List.cons.inj split
          rw [totalWidth] at high
          omega
        | cons z before =>
          obtain ⟨rfl, rfl⟩ := List.cons.inj split
          rw [totalWidth] at low high bit
          refine ⟨before, y, after, rfl, by omega, by omega, ?_⟩
          rwa [show p - (x + g.width) - totalWidth before = p - x - (g.width + totalWidth before) by omega]
    · rw [if_neg (by omega)]
      constructor
      · intro bit
        have low : x ≤ p := by
          refine Nat.le_of_not_lt fun left => ?_
          rw [Nat.testBit_lt_two_pow (Nat.lt_of_lt_of_le (rowBits_lt g here r)
            (Nat.pow_le_pow_right (by decide) (by omega)))] at bit
          exact Bool.false_ne_true bit
        refine ⟨[], g, gs, rfl, low, by rw [totalWidth]; omega, ?_⟩
        rw [← rowBits_testBit here r (q := p - x - totalWidth []) (by rw [totalWidth]; omega), totalWidth]
        rwa [show g.width - 1 - (p - x - 0) = w - 1 - p - (w - x - g.width) by omega]
      · rintro ⟨before, y, after, split, low, high, bit⟩
        cases before with
        | nil =>
          obtain ⟨rfl, rfl⟩ := List.cons.inj split
          rw [totalWidth] at low
          rw [← rowBits_testBit here r (q := p - x - totalWidth []) (by rw [totalWidth]; omega), totalWidth] at bit
          rwa [show w - 1 - p - (w - x - g.width) = g.width - 1 - (p - x - 0) by omega]
        | cons z before =>
          obtain ⟨rfl, rfl⟩ := List.cons.inj split
          rw [totalWidth] at low
          omega

/-! ### A field from its codes (R101 to R105) -/

/-- The codes of a content, its absent texts left out (R101). -/
def codesOf (s : State) : Content → List Nat
  | .blank => []
  | .codes l => l
  | .text id => (s.textCodes id).getD []
  | .codesThenText l id => l ++ (s.textCodes id).getD []

/-- A content reads a text that is absent (R103). -/
def ReadsAbsent (s : State) (c : Content) : Prop :=
  (∃ id, c = .text id ∧ s.textCodes id = none) ∨ ∃ l id, c = .codesThenText l id ∧ s.textCodes id = none

theorem contentCodes_spec (s : State) (c : Content) :
    (s.contentCodes c).1 = codesOf s c ∧ ((s.contentCodes c).2 = true ↔ ReadsAbsent s c) := by
  cases c with
  | blank => simp [State.contentCodes, codesOf, ReadsAbsent]
  | codes l => simp [State.contentCodes, codesOf, ReadsAbsent]
  | text id => cases there : s.textCodes id <;> simp [State.contentCodes, codesOf, ReadsAbsent, there]
  | codesThenText l id => cases there : s.textCodes id <;> simp [State.contentCodes, codesOf, ReadsAbsent, there]

theorem glyphAbsent_iff (s : State) (code : Nat) : s.glyphAbsent code = true ↔ s.glyphEntry code = none :=
  Option.isNone_iff_eq_none

/-- The faults of a rendering, each at most once: one for absent texts, one for absent glyphs (R103). -/
theorem absentFaults_spec (text glyph : Bool) :
    let l : List FaultCode := (if text then [.content502] else []) ++ (if glyph then [.content501] else [])
    l.Nodup ∧ (∀ c ∈ l, c = .content501 ∨ c = .content502) ∧
      (.content502 ∈ l ↔ text = true) ∧ (.content501 ∈ l ↔ glyph = true) := by
  cases text <;> cases glyph <;> decide

/-- A field is drawn from its list of codes and reports its absent texts and glyphs (R101 to R105). -/
theorem renderField_spec (s : State) (f : Field) :
    let gs := (codesOf s f.content).map s.resolve
    (s.renderField f).1 = drawLine (40 * f.tiles) f.right (fitLine (40 * f.tiles - 4) (s.resolve 1) gs) ∧
      (s.renderField f).2.Nodup ∧
      (∀ c ∈ (s.renderField f).2, c = .content501 ∨ c = .content502) ∧
      (.content502 ∈ (s.renderField f).2 ↔ ReadsAbsent s f.content) ∧
      (.content501 ∈ (s.renderField f).2 ↔
        (∃ c ∈ codesOf s f.content, s.glyphEntry c = none) ∨
          (40 * f.tiles - 4 < totalWidth gs ∧ s.glyphEntry 1 = none)) := by
  intro gs
  obtain ⟨codes, absent⟩ := contentCodes_spec s f.content
  obtain ⟨once, among, text, glyph⟩ := absentFaults_spec (s.contentCodes f.content).2
    ((codesOf s f.content).any s.glyphAbsent || (decide (40 * f.tiles - 4 < totalWidth gs) && s.glyphAbsent 1))
  simp only [State.renderField, codes]
  refine ⟨rfl, once, among, text.trans absent, glyph.trans ?_⟩
  simp only [Bool.or_eq_true, List.any_eq_true, glyphAbsent_iff, Bool.and_eq_true, decide_eq_true_eq]

/-! ### The sweep's tiles (R87, R90, R91) -/

/-- A recomposition that leaves the departure rows alone shows what stood there. -/
theorem recompose_sight {s : State} (size : s.sizeDiffers = false) {b : Bands} (rows : b.rows = false) :
    SameSight s (s.recompose b) := by
  obtain ⟨wt, ht⟩ := compose_geometry s b
  have composed := compose_panelWork s b
  have kept : (s.compose b).1.composer.rows = s.composer.rows := by
    rw [compose_rows, rows]
    exact if_neg Bool.false_ne_true
  have size' : (s.compose b).1.sizeDiffers = false := by
    rw [← size]
    simp only [State.sizeDiffers, composed.cfg, wt, ht]
  exact (composed.sameSight kept wt ht).trans (handOverAll_sight _ size').1

/-- A tile outside such a recomposition goes on wanting its image (R91). -/
theorem recompose_keeps_wanted {s : State} (ready : Ready s) {b : Bands} (rows : b.rows = false) {i : Nat}
    (within : i < s.tiles.wt * s.tiles.ht) (outside : ¬b.cover s.tiles.wt s.tiles.ht i) (h : s.wantsItsImage i) :
    (s.recompose b).wantsItsImage i := by
  obtain ⟨wide, high⟩ := TablePuts.geometry_of_config ready
  obtain ⟨-, wanted⟩ := recompose_wanted ready.image ready.glyphs ready.size wide high b
  exact wantsItsImage_of_same (recompose_sight ready.size rows) ((wanted i within).2 outside) h

/-- A recomposition leaves the part as ready for the next. -/
theorem recompose_ready {s : State} (ready : Ready s) (b : Bands) : Ready (s.recompose b) := by
  have work := recompose_panelWork s b
  obtain ⟨image, config, ⟨present, writing⟩, size⟩ := ready
  refine ⟨PanelInvariants.image_kept.toKeeps.recompose image b, work.cfg ▸ config,
    ⟨fun code g h => present code g ?_, fun code g h => writing code g (work.link ▸ h)⟩, TablePuts.recompose_sizeDiffers size b⟩
  simpa only [State.glyphEntry, work.flash, work.presence] using h

/-- What the expiry of the notices does: a decision, and then the notice band or nothing. -/
theorem expireNotices_cases (s : State) : ∃ (notices : Notices) (rotation : Timer),
    let decided := { s with notices := notices, timers := { s.timers with rotation := rotation } }
    s.expireNotices = decided ∨ s.expireNotices = decided.recompose noticeBand := by
  cases time : s.clock.time with
  | none => exact ⟨s.notices, s.timers.rotation, .inl (by simp only [State.expireNotices, time])⟩
  | some u =>
    obtain ⟨frame, -⟩ := decideNotices_decided s (s.notices.list.filter fun n => !n.expired u.date u.second)
    refine ⟨(s.decideNotices (s.notices.list.filter fun n => !n.expired u.date u.second)).1.notices,
      (s.decideNotices (s.notices.list.filter fun n => !n.expired u.date u.second)).1.timers.rotation, ?_⟩
    rw [← frame]
    simp only [State.expireNotices, time]
    split
    · exact .inr rfl
    · exact .inl rfl

/-- The expiry of the notices leaves the rows' records and the board. -/
theorem expireNotices_rows {s : State} (size : s.sizeDiffers = false) :
    s.expireNotices.composer.rows = s.composer.rows ∧ s.expireNotices.board = s.board ∧
      s.expireNotices.sizeDiffers = false := by
  obtain ⟨notices, rotation, same | recomposed⟩ := expireNotices_cases s
  · rw [same]
    exact ⟨rfl, rfl, size⟩
  · rw [recomposed]
    have sight := recompose_sight (s := { s with notices := notices, timers := { s.timers with rotation := rotation } })
      (b := noticeBand) (by exact size) rfl
    exact ⟨sight.rows, sight.board, TablePuts.recompose_sizeDiffers (by exact size) _⟩

/-- The expiry of the notices leaves every tile of a departure row wanting its image. -/
theorem expireNotices_paints {s : State} (ready : Ready s) {i : Nat} (within : i < s.tiles.wt * s.tiles.ht)
    (above : i / s.tiles.wt + 1 < s.tiles.ht) (h : s.wantsItsImage i) : s.expireNotices.wantsItsImage i := by
  obtain ⟨notices, rotation, cases⟩ := expireNotices_cases s
  have decided : State.wantsItsImage { s with notices := notices, timers := { s.timers with rotation := rotation } } i := by
    obtain ⟨t, px, there, image, wanted⟩ := h
    exact ⟨t, px, there, (imageAt_notices s notices (Nat.ne_of_lt above) px).mpr image, wanted⟩
  rcases cases with same | recomposed
  · rw [same]
    exact decided
  · rw [recomposed]
    have ready' : Ready { s with notices := notices, timers := { s.timers with rotation := rotation } } := by
      obtain ⟨image, config, glyphs, size⟩ := ready
      exact ⟨image, config, glyphs, size⟩
    refine recompose_keeps_wanted ready' rfl within ?_ decided
    rintro (⟨-, whole | ⟨clock, -⟩⟩ | ⟨rows, -⟩ | ⟨-, last⟩)
    · exact nomatch whole
    · exact nomatch clock
    · exact nomatch rows
    · exact absurd last (Nat.ne_of_lt above)

/-- A sweep of the board changes the board alone. -/
theorem sweepBoard_frame (s : State) : ∃ board : Board, s.sweepBoard = { s with board := board } := by
  unfold State.sweepBoard
  split
  · exact ⟨_, rfl⟩
  · exact ⟨s.board, rfl⟩

/-- What a due sweep makes of the rows and their tiles, the swept board given. -/
theorem exec_sweep_rows {s : State} (due : s.timers.sweep.due = true) (size : s.sizeDiffers = false) :
    ∃ (t : State) (board : Board), exec .sweep s = .next t ∧ t.board = board ∧
      t.composer.rows = State.evaluate { s with board := board } ∧
      (s.imageSound → s.configSound → s.glyphsSound →
        ∀ i, 1 ≤ i / s.tiles.wt → i / s.tiles.wt + 1 < s.tiles.ht → t.wantsItsImage i) := by
  obtain ⟨board, swept⟩ := sweepBoard_frame { s with timers := { s.timers with sweep := s.timers.sweep.expire } }
  have run := Rounds.exec_sweep_of_due due
  rw [swept] at run
  obtain ⟨rows, size'⟩ := recompose_rows
    (s := { s with board := board, timers := { s.timers with sweep := s.timers.sweep.expire } }) (by exact size) rowBands
  have work := recompose_panelWork { s with board := board, timers := { s.timers with sweep := s.timers.sweep.expire } } rowBands
  obtain ⟨rows', board', size''⟩ := expireNotices_rows size'
  have settled := settle_grantWork size''
  refine ⟨_, board, run, settled.board.trans (board'.trans work.board),
    (congrArg Composer.rows settled.composer).trans (rows'.trans rows), fun image ⟨config, _⟩ glyphs i below above => ?_⟩
  have ready : Ready { s with board := board, timers := { s.timers with sweep := s.timers.sweep.expire } } :=
    ⟨image, config, glyphs, size⟩
  obtain ⟨wide, high⟩ := TablePuts.geometry_of_config ready
  obtain ⟨-, wanted⟩ := recompose_wanted ready.image ready.glyphs ready.size wide high rowBands
  have glass := (RequestReset.recompose_reforms ready.size rowBands).glass
  have within : i < s.tiles.wt * s.tiles.ht := by
    rw [Nat.mul_comm]
    exact (Nat.div_lt_iff_lt_mul (by exact Nat.lt_of_lt_of_le (by decide) wide)).mp (by omega)
  refine TablePuts.settle_paints size'' (expireNotices_paints (recompose_ready ready rowBands) ?_ ?_
    ((wanted i within).1 (.inr (.inl ⟨rfl, below, above⟩))))
  · rw [glass.wt, glass.ht]
    exact within
  · rw [glass.wt, glass.ht]
    exact above

/-- The record that an evaluation gives a departure row (R76 to R81). -/
theorem evaluate_record {s : State} {k : Nat} {old new : RowRecord} (before : s.composer.rows[k]? = some old)
    (after : s.evaluate[k]? = some new) :
    (s.clock.time = none → new = if k = 0 then .message .timeUnknown else .empty) ∧
      ∀ u, s.clock.time = some u →
        (s.board.entries = [] → new = if k = 0 then .message .noDepartures else .empty) ∧
        (s.board.entries ≠ [] → s.board.entries.length ≤ k → new = .empty) ∧
        ∀ e, s.board.entries[k]? = some e →
          new = evaluateEntry u.second u.dayStart (s.cfg.param 9) s.energy.conserve old e := by
  rw [evaluate_row, before, Option.map_some, Option.some.injEq] at after
  refine ⟨fun unset => ?_, fun u time => ⟨fun empty => ?_, fun full beyond => ?_, fun e there => ?_⟩⟩
  · rw [← after, unset]
  · rw [← after, time]
    exact if_pos (List.isEmpty_iff.mpr empty)
  · rw [← after, time, List.getElem?_eq_none beyond]
    exact if_neg (mt List.isEmpty_iff.mp full)
  · have full : s.board.entries ≠ [] := fun empty => by rw [empty] at there; exact nomatch there
    rw [← after, time, there]
    exact if_neg (mt List.isEmpty_iff.mp full)

/-- Settles O42: the rows' records by `evaluate_record`, a field by `renderField_spec`, and the tiles by `recompose_wanted`. -/
theorem sweepEvaluatesEveryRow : Obligations.SweepEvaluatesEveryRow := by
  refine ⟨fun s running zero _ size => ?sweep, resolve_spec, fun available ellipsis gs narrow => fitLine_spec gs narrow,
    fun w right gs => ⟨drawLine_length w right gs, drawLine_getD w right gs⟩,
    fun w x r p gs fits narrow inside => drawRow_pixel gs narrow inside fits,
    fun s f => ?field, fun s b image config glyphs size => ?recomposition⟩
  case sweep =>
    obtain ⟨t, board, run, swept, rows, paints⟩ := exec_sweep_rows ((Timer.due_iff _).mpr ⟨running, zero⟩) size
    refine ⟨t, run, by rw [rows]; exact evaluate_length _, paints, fun k old new before after => ?_⟩
    rw [rows] at after
    obtain ⟨unset, record⟩ := evaluate_record (by exact before) after
    refine ⟨unset, fun u time => ?_⟩
    obtain ⟨empty, beyond, entry⟩ := record u time
    rw [swept]
    refine ⟨empty, beyond, fun e there => ?_⟩
    intro delta wall m n
    obtain rfl : new = evaluateEntry u.second u.dayStart (s.cfg.param 9) s.energy.conserve old e := entry e there
    refine ⟨evaluateEntry_cancelled, evaluateEntry_clockTime, evaluateEntry_due, evaluateEntry_late, fun live far counts => ?_⟩
    rw [evaluateEntry_counting live far counts, conserveValue_eq]
    refine ⟨fun v p same => ?_, fun other => settleCountdown_fresh other _⟩
    rw [same]
    exact settleCountdown_same ..
  case field =>
    intro absent codes gs
    have same : codes = codesOf s f.content := by
      cases h : f.content <;> simp only [codes, h, codesOf]
    simp only [gs, same]
    exact renderField_spec s f
  case recomposition =>
    intro wanted t
    obtain ⟨wide, high⟩ := TablePuts.geometry_of_config ⟨image, config.1, glyphs, size⟩
    obtain ⟨length, tiles⟩ := recompose_wanted image glyphs size wide high b
    refine ⟨length, fun i within => ⟨(tiles i within).1, fun outside => ?_⟩⟩
    simp only [wanted, ← List.getElem?_map]
    exact (tiles i within).2 outside

end Sys2Proof.SweepRows
end

section
/-! PROOFS. Start-up up to its identity exchange: what it reads from flash, the first sample, the first image, and its faults. -/

namespace Sys2Proof.StartUpRun

open Sys2Proof.Machine
open Sys2Proof.TablePuts (Ready)
open Sys2Proof.Samples (sampled conserveNews lowCodes tempCodes sampleOwn_eq)

/-! ### Faults raised in order while the clock is UNSET (R61, R174) -/

/-- The Fault Unit after faults raised in order without a time. -/
def raises (codes : List FaultCode) (f : FaultUnit) : FaultUnit := codes.foldl (fun f c => f.raise c none) f

theorem raises_append (a b : List FaultCode) (f : FaultUnit) : raises (a ++ b) f = raises b (raises a f) := List.foldl_append

/-- A raise commutes with a news item added beside it. -/
theorem raise_addNews (f : FaultUnit) (c : FaultCode) (b : BitVec 16) :
    ({ f with news := f.news ||| b } : FaultUnit).raise c none = { f.raise c none with news := (f.raise c none).news ||| b } := by
  cases latched : f.isLatched c.cls
  · have latched' : FaultUnit.isLatched { f with news := f.news ||| b } c.cls = false := latched
    simp only [FaultUnit.raise, latched, latched', Bool.false_eq_true, if_false, BitVec.or_assoc, BitVec.or_comm b]
  · have latched' : FaultUnit.isLatched { f with news := f.news ||| b } c.cls = true := latched
    simp only [FaultUnit.raise, latched, latched', if_true]

theorem raises_addNews (codes : List FaultCode) (f : FaultUnit) (b : BitVec 16) :
    raises codes { f with news := f.news ||| b } = { raises codes f with news := (raises codes f).news ||| b } := by
  induction codes generalizing f with
  | nil => rfl
  | cons c codes ih =>
    refine Eq.trans ?_ (ih (f.raise c none))
    exact congrArg (raises codes) (raise_addNews f c b)

theorem raises_latched {codes : List FaultCode} {c : FaultCode} (mem : c ∈ codes) (f : FaultUnit) :
    (raises codes f).isLatched c.cls = true := by
  obtain ⟨before, after, rfl⟩ := List.append_of_mem mem
  rw [raises_append]
  have kept : ∀ (l : List FaultCode) (g : FaultUnit), g.isLatched c.cls = true → (raises l g).isLatched c.cls = true := by
    intro l
    induction l with
    | nil => exact fun _ h => h
    | cons d l ih => exact fun g h => ih _ (StartUpEnd.raise_keeps_latched h d none)
  exact kept after _ (StartUpEnd.raise_latches _ c none)

/-- The first record, once filled, stays (R174). -/
theorem raises_first {x : FaultRecord} (codes : List FaultCode) {f : FaultUnit} (h : f.first = some x) :
    (raises codes f).first = some x := by
  induction codes generalizing f with
  | nil => exact h
  | cons c codes ih => exact ih (by simp only [FaultUnit.raise, h, Option.some_or])

theorem raiseAll_unset {s : State} (unset : s.clock.stamp = none) (codes : List FaultCode) :
    s.raiseAll codes = { s with faults := raises codes s.faults } := by
  induction codes generalizing s with
  | nil => rfl
  | cons c codes ih =>
    refine (ih (s := s.raise c) unset).trans ?_
    simp only [State.raise, unset]
    rfl

/-- A fault that is raised or not. -/
def chosen (b : Bool) (c : FaultCode) : List FaultCode := if b then [c] else []

theorem raise_chosen {s : State} (unset : s.clock.stamp = none) (b : Bool) (c : FaultCode) :
    (if b then s.raise c else s) = { s with faults := raises (chosen b c) s.faults } := by
  cases b
  · rfl
  · simp only [if_true, State.raise, unset]
    rfl

theorem count_chosen (b : Bool) (c d : FaultCode) : (chosen b c).count d = if b = true ∧ c = d then 1 else 0 := by
  cases b
  · simp [chosen]
  · simp [chosen, List.count_singleton]

theorem mem_chosen {b : Bool} {c d : FaultCode} : d ∈ chosen b c ↔ b = true ∧ d = c := by
  cases b <;> simp [chosen]

/-! ### The faults of start-up's own steps (R42, R100, R144, R162, R194) -/

/-- The faults of start-up before its first image. -/
def startCodes (config bankA bankB : Bool) (texts glyphs : Nat) (low cold hot : Bool) : List FaultCode :=
  chosen config .store101 ++ chosen bankA .store102 ++ chosen bankB .store103 ++ List.replicate texts .store104 ++
    List.replicate glyphs .store105 ++ chosen low .supply801 ++ chosen cold .temp401 ++ chosen hot .temp402

section Codes

variable (config bankA bankB : Bool) (texts glyphs : Nat) (low cold hot : Bool)

theorem count_startCodes :
    let l := startCodes config bankA bankB texts glyphs low cold hot
    l.count .store101 = (if config = true then 1 else 0) ∧ l.count .store102 = (if bankA = true then 1 else 0) ∧
      l.count .store103 = (if bankB = true then 1 else 0) ∧ l.count .store104 = texts ∧ l.count .store105 = glyphs ∧
      l.count .supply801 = (if low = true then 1 else 0) ∧ l.count .temp401 = (if cold = true then 1 else 0) ∧
      l.count .temp402 = (if hot = true then 1 else 0) := by
  simp [startCodes, List.count_append, count_chosen, List.count_replicate]

theorem mem_startCodes {c : FaultCode} (h : c ∈ startCodes config bankA bankB texts glyphs low cold hot) :
    c ∈ [FaultCode.store101, .store102, .store103, .store104, .store105, .supply801, .temp401, .temp402] := by
  simp only [startCodes, List.mem_append, mem_chosen, List.mem_replicate] at h
  rcases h with ((((((⟨-, rfl⟩ | ⟨-, rfl⟩) | ⟨-, rfl⟩) | ⟨-, rfl⟩) | ⟨-, rfl⟩) | ⟨-, rfl⟩) | ⟨-, rfl⟩) | ⟨-, rfl⟩ <;> decide

end Codes

/-! ### The tables' check (R96, R100) -/

section Tables

variable {α : Type} {inRange : α → Bool} {t : List (Nat × Item α)} {k : Nat}

/-- An item fails the start-up check (R100). -/
def Fails (inRange : α → Bool) : Item α → Bool
  | .erased => false
  | .bad => true
  | .good a => !inRange a

theorem mem_of_tableRead {y : Item α} (h : tableRead t k = y) (there : y ≠ .erased) : (k, y) ∈ t := by
  induction t with
  | nil => exact absurd h.symm there
  | cons p t ih =>
    obtain ⟨n, x⟩ := p
    rw [tableRead] at h
    split at h
    case isTrue same => rw [← h, ← same]; exact List.mem_cons_self
    case isFalse => exact List.mem_cons_of_mem _ (ih h)

theorem mem_tableCheck {a : α} (mem : (k, .good a) ∈ t) (good : inRange a = true) : k ∈ (tableCheck inRange t).1 := by
  induction t with
  | nil => cases mem
  | cons p t ih =>
    obtain ⟨n, x⟩ := p
    have later (m : (k, .good a) ∈ t) : k ∈ (tableCheck inRange ((n, x) :: t)).1 := by
      have := ih m
      cases x with
      | erased => exact this
      | bad => exact this
      | good b =>
        rw [tableCheck]
        split
        · exact List.mem_cons_of_mem _ this
        · exact this
    rcases List.mem_cons.mp mem with e | m
    · cases e
      rw [tableCheck, if_pos good]
      exact List.mem_cons_self
    · exact later m

/-- The check makes present exactly the items that are good and in range (R96, R100). -/
theorem mem_tableCheck_iff (wf : tableWf t = true) :
    k ∈ (tableCheck inRange t).1 ↔ ∃ x, tableRead t k = .good x ∧ inRange x = true := by
  constructor
  · intro mem
    obtain ⟨a, listed, good⟩ := TablesAndCounts.good_of_mem_tableCheck mem
    exact ⟨a, TablesAndCounts.tableRead_of_mem wf listed, good⟩
  · rintro ⟨a, read, good⟩
    exact mem_tableCheck (mem_of_tableRead read nofun) good

/-- The check counts the items that fail (R100). -/
theorem tableCheck_fails (inRange : α → Bool) (t : List (Nat × Item α)) :
    (tableCheck inRange t).2 = (t.filter fun x => Fails inRange x.2).length := by
  induction t with
  | nil => rfl
  | cons p t ih =>
    obtain ⟨n, x⟩ := p
    cases x with
    | erased => rw [tableCheck, ih, List.filter_cons_of_neg (by simp [Fails])]
    | bad => rw [tableCheck, ih, List.filter_cons_of_pos (by rfl), List.length_cons]
    | good a =>
      cases good : inRange a
      · rw [tableCheck, if_neg (by simp [good]), ih, List.filter_cons_of_pos (by simp [Fails, good]), List.length_cons]
      · rw [tableCheck, if_pos good, ih, List.filter_cons_of_neg (by simp [Fails, good])]

/-- An item stored and not present has failed. -/
theorem tableCheck_failed (stored : tableRead t k ≠ .erased) (absent : k ∉ (tableCheck inRange t).1) :
    (tableCheck inRange t).2 ≠ 0 := by
  have listed := mem_of_tableRead rfl stored
  rw [tableCheck_fails, ← Nat.pos_iff_ne_zero, List.length_pos_iff_exists_mem]
  refine ⟨_, List.mem_filter.mpr ⟨listed, ?_⟩⟩
  cases read : tableRead t k with
  | erased => exact absurd read stored
  | bad => rfl
  | good a =>
    rw [read] at listed
    have out : ¬inRange a = true := fun good => absent (mem_tableCheck listed good)
    simpa [Fails] using out

end Tables

/-! ### The configuration record and the banks (R42, R194) -/

theorem loadConfig_fails_iff (x : Item ConfigRecord) :
    x.loadConfig.2 = true ↔ x = .bad ∨ ∃ c, x = .good c ∧ c.inRange = false := by
  cases x with
  | erased => simp [Item.loadConfig]
  | bad => simp [Item.loadConfig]
  | good c => cases good : c.inRange <;> simp [Item.loadConfig, good]

theorem loadConfig_failed {x : Item ConfigRecord} (h : x.loadConfig.2 = true) : x.loadConfig.1 = Config.defaults := by
  rcases (loadConfig_fails_iff x).mp h with rfl | ⟨c, rfl, out⟩
  · rfl
  · simp only [Item.loadConfig, out, Bool.false_eq_true, if_false]

theorem loadConfig_good {c : ConfigRecord} (h : c.inRange = true) : (Item.good c).loadConfig.1 = c := by
  simp only [Item.loadConfig, h, if_true]

theorem checked_fails_iff (b : StoredBank) : b.checked.2 = true ↔ b.header = .bad ∨
    ∃ d n k m, b.header = .good (.valid d n k m) ∧ ¬(n ≤ 1200 ∧ crc16 (b.trips.flatMap Trip.bytes) = k) := by
  unfold StoredBank.checked
  split <;> rename_i header
  · simp [header]
  · simp [header]
  · simp [header]
  · rename_i d n k m
    split
    case isTrue good =>
      simp only [Bool.false_eq_true, false_iff, header]
      rintro (bad | ⟨_, _, _, _, e, fails⟩)
      · cases bad
      · cases e
        exact fails good
    case isFalse fails =>
      simp only [true_iff, header]
      exact .inr ⟨_, _, _, _, rfl, fails⟩

/-- A bank that is read has no role, and its record is that of a VALID bank that passes, or FREE (R42, R194). -/
theorem checked_record (b : StoredBank) :
    let free : BankRecord := ⟨.free, 0, 0, 0, 0, none⟩
    b.checked.1.role = none ∧
      (b.header = .erased ∨ (∃ d n k m, b.header = .good (.filling d n k m)) → b.checked.1 = free) ∧
      (b.checked.2 = true → b.checked.1 = free) ∧
      ∀ d n k m, b.header = .good (.valid d n k m) → n ≤ 1200 ∧ crc16 (b.trips.flatMap Trip.bytes) = k →
        b.checked.1 = ⟨.valid, d, n, k, m, none⟩ := by
  unfold StoredBank.checked
  split <;> rename_i header
  · exact ⟨rfl, fun _ => rfl, fun _ => rfl, fun d n k m e => by cases header.symm.trans e⟩
  · exact ⟨rfl, fun _ => rfl, fun _ => rfl, fun d n k m e => by cases header.symm.trans e⟩
  · exact ⟨rfl, fun _ => rfl, fun _ => rfl, fun d n k m e => by cases header.symm.trans e⟩
  · rename_i date count check commit
    have notFilling (free x : BankRecord)
        (h : b.header = .erased ∨ ∃ d n k m, b.header = .good (.filling d n k m)) : x = free := by
      rcases h with e | ⟨_, _, _, _, e⟩ <;> cases header.symm.trans e
    split
    case isTrue good =>
      exact ⟨rfl, notFilling _ _, nofun, fun d n k m e _ => by cases header.symm.trans e; rfl⟩
    case isFalse fails =>
      exact ⟨rfl, notFilling _ _, fun _ => rfl, fun d n k m e good => by cases header.symm.trans e; exact absurd good fails⟩

/-! ### The steps of start-up (R194) -/

/-- The faults of the checks of what flash holds (R42, R100, R194). -/
def flashCodes (flash : Flash) : List FaultCode :=
  chosen flash.config.loadConfig.2 .store101 ++ chosen flash.bankA.checked.2 .store102 ++
    chosen flash.bankB.checked.2 .store103 ++ List.replicate (tableCheck textInRange flash.texts).2 .store104 ++
    List.replicate (tableCheck Glyph.inRange flash.glyphs).2 .store105

/-- Steps 1 and 2: what is read from flash, with the faults of its checks. -/
def readFlash (s : State) : State :=
  let c := s.flash.config.loadConfig
  { s with
    cfg := c.1
    timers := .afterReset c.1
    composer := .afterReset (c.1.param 1) (c.1.param 2)
    tiles := .afterReset (c.1.param 1) (c.1.param 2)
    store := (s.store.setBank .a s.flash.bankA.checked.1).setBank .b s.flash.bankB.checked.1
    presence := ⟨(tableCheck textInRange s.flash.texts).1, (tableCheck Glyph.inRange s.flash.glyphs).1⟩
    faults := raises (flashCodes s.flash) s.faults }

theorem loadConfig_eq {s : State} (unset : s.clock.stamp = none) : s.loadConfig =
    { s with
      cfg := s.flash.config.loadConfig.1
      timers := .afterReset s.flash.config.loadConfig.1
      composer := .afterReset (s.flash.config.loadConfig.1.param 1) (s.flash.config.loadConfig.1.param 2)
      tiles := .afterReset (s.flash.config.loadConfig.1.param 1) (s.flash.config.loadConfig.1.param 2)
      faults := raises (chosen s.flash.config.loadConfig.2 .store101) s.faults } :=
  raise_chosen (s := { s with
    cfg := s.flash.config.loadConfig.1
    timers := .afterReset s.flash.config.loadConfig.1
    composer := .afterReset (s.flash.config.loadConfig.1.param 1) (s.flash.config.loadConfig.1.param 2)
    tiles := .afterReset (s.flash.config.loadConfig.1.param 1) (s.flash.config.loadConfig.1.param 2) }) unset _ _

theorem checkBank_eq {s : State} (unset : s.clock.stamp = none) (i : BankId) (f : FaultCode) : s.checkBank i f =
    { s with
      store := s.store.setBank i (s.flash.bank i).checked.1
      faults := raises (chosen (s.flash.bank i).checked.2 f) s.faults } :=
  raise_chosen (s := s.setStore (s.store.setBank i (s.flash.bank i).checked.1)) unset _ _

theorem readFlash_eq {s : State} (unset : s.clock.stamp = none) :
    ((s.loadConfig.checkBank .a .store102).checkBank .b .store103).checkTables = readFlash s := by
  rw [loadConfig_eq unset, checkBank_eq (by exact unset) .a, checkBank_eq (by exact unset) .b, State.checkTables,
    raiseAll_unset (by exact unset)]
  simp only [readFlash, flashCodes, raises_append]
  rfl

/-- The supply level after a reading of the comparator (R161). -/
def levelAt (s : State) (mv : Int) : Bool :=
  if mv = s.cfg.param 20 then s.drive.supplyAbove else decide ((s.cfg.param 20 : Int) < mv)

/-- With the booster OFF and no job granted the level alone moves (R161). -/
theorem seeVoltage_idle {s : State} (off : s.drive.booster = .off) (idle : s.drive.granted = none)
    (quiet : s.drive.exchange = none) (held : s.drive.held = []) (mv : Int) :
    s.seeVoltage mv = { s with drive := { s.drive with supplyAbove := levelAt s mv } } := by
  unfold State.seeVoltage levelAt
  split
  · rfl
  · have above : s.above = s.drive.supplyAbove := by rw [State.above, held]; rfl
    unfold State.moveLevel
    rw [above]
    split
    case isTrue same => rw [same]
    case isFalse =>
      rw [State.driveEvent, quiet]
      cases decide ((s.cfg.param 20 : Int) < mv)
      · simp only [Option.isSome_none, Bool.false_eq_true, if_false, State.takeDriveEvent, State.takeBrownout, off]
        rfl
      · simp only [Option.isSome_none, Bool.false_eq_true, if_false, if_true, State.takeDriveEvent,
          State.takeSupplyRise, off, idle]
        rfl

theorem tempCodes_eq (c : Int) :
    tempCodes c = chosen (decide (saturateTemp c < -10)) .temp401 ++ chosen (decide (55 < saturateTemp c)) .temp402 := by
  unfold tempCodes chosen
  by_cases cold : saturateTemp c < -10
  · have mild : ¬55 < saturateTemp c := by omega
    simp [cold, mild]
  · simp [cold]

theorem tempFault_eq {s : State} (unset : s.clock.stamp = none) (c : Int) :
    s.tempFault c = { s with faults := raises (tempCodes c) s.faults } := by
  unfold State.tempFault tempCodes
  split
  · simp only [State.raise, unset]
    rfl
  · split
    · simp only [State.raise, unset]
      rfl
    · rfl

/-- Step 3: the state with the first sample taken and its three timers started. -/
def sampledFirst (s : State) (mv c : Int) : State :=
  { s with
    drive := { s.drive with supplyAbove := levelAt s mv }
    energy := sampled s c (saturateVs mv)
    timers := { s.timers with
      sweep := s.timers.sweep.start
      sample := s.timers.sample.start
      rotation := s.timers.rotation.start }
    faults := raises (lowCodes s (saturateVs mv) ++ tempCodes c) { s.faults with news := conserveNews s (saturateVs mv) } }

theorem sampledFirst_eq {s : State} (off : s.drive.booster = .off) (idle : s.drive.granted = none)
    (quiet : s.drive.exchange = none) (held : s.drive.held = []) (unset : s.clock.stamp = none) (mv c : Int) :
    s.firstSample mv c = sampledFirst s mv c := by
  unfold State.firstSample
  rw [seeVoltage_idle off idle quiet held, sampleOwn_eq, tempFault_eq (by exact unset)]
  simp only [unset, sampledFirst, raises_append]
  rfl

/-- Step 4: the rows are evaluated, every tile comes to want its image, and beside CONTENT faults nothing else changes
(R92, R194). -/
theorem firstImage_spec (s : State) : ∃ (faults : FaultUnit) (composer : Composer) (tiles : TileMap),
    s.firstImage = { s with faults := faults, composer := composer, tiles := tiles } ∧ ContentWork s s.firstImage ∧
      composer.rows = s.evaluate ∧ SameGlass s.tiles tiles ∧ tiles.elapsed = s.tiles.elapsed ∧
      (Ready s → ∀ i, i < s.tiles.wt * s.tiles.ht → s.firstImage.wantsItsImage i) := by
  obtain ⟨faults, rows, pixels, tiles, composed⟩ := StepInvariants.compose_eq s allBands
  have rows' := compose_rows s allBands
  have glass := (RequestReset.compose_reforms s allBands).glass
  have content : ContentWork s s.firstImage := (compose_contentWork s allBands).trans (.of_same rfl rfl)
  have formed := formRows_sameGlass (s.compose allBands).1.notices.jobClass (s.compose allBands).2 (s.compose allBands).1.tiles
  have paints (ready : Ready s) (i : Nat) (within : i < s.tiles.wt * s.tiles.ht) : s.firstImage.wantsItsImage i := by
    obtain ⟨wide, high⟩ := TablePuts.geometry_of_config ready
    obtain ⟨-, wanted⟩ := compose_wanted ready.image ready.glyphs wide high allBands
    have sight : SameSight (s.compose allBands).1 s.firstImage :=
      ⟨rfl, rfl, rfl, rfl, rfl, rfl, rfl, rfl, formed.wt, formed.ht⟩
    refine wantsItsImage_of_same sight ?_ ((wanted i within).1 (Grants.allBands_cover within))
    exact congrArg (fun l => l[i]?) (Settings.formRows_wanted _ _ _)
  refine ⟨s.firstImage.faults, s.firstImage.composer, s.firstImage.tiles, ?_, content, rows', glass.trans formed, ?_, paints⟩
  · rw [State.firstImage, composed]
    rfl
  · refine (formRows_elapsed _ _ _).trans ?_
    rw [composed]

/-- The part with its straps and its comparator read, before step 1. -/
def awake (s : State) (cause : ResetCause) (br1 br0 above : Bool) : State :=
  let d := s.dropped .startUp cause
  { d with link := { d.link with br1 := br1, br0 := br0 }, drive := { d.drive with supplyAbove := above } }

/-- The state that the first image is composed in. -/
def beforeImage (s : State) (cause : ResetCause) (br1 br0 above : Bool) (mv c : Int) : State :=
  sampledFirst (readFlash (awake s cause br1 br0 above)) mv c

theorem startUp_eq (s : State) (cause : ResetCause) (br1 br0 above : Bool) (mv c : Int) :
    (s.dropped .startUp cause).startUp br1 br0 above mv c =
      let d := (beforeImage s cause br1 br0 above mv c).firstImage
      d.setDrive { d.drive with exchange := some .startUp } := by
  have read := readFlash_eq (s := awake s cause br1 br0 above) rfl
  have sampled := sampledFirst_eq (s := readFlash (awake s cause br1 br0 above)) rfl rfl rfl rfl rfl mv c
  rw [← read] at sampled
  unfold State.startUp beforeImage
  rw [← read, ← sampled]
  rfl

/-- Both resets run start-up from the values of a cleared part, with the line high. -/
theorem exec_reset {s : State} {c : Instr} {br1 br0 above : Bool} {mv celsius : Int} {cause : ResetCause}
    (reset : (c = .powerOnReset br1 br0 above mv celsius ∧ s.lineLow = false ∧ cause = .power) ∨
      (c = .lineResetRelease br1 br0 above mv celsius ∧ s.phase = .held ∧ cause = .line)) :
    exec c s = .next (((s.setLine false).dropped .startUp cause).startUp br1 br0 above mv celsius) := by
  rcases reset with ⟨rfl, high, rfl⟩ | ⟨rfl, held, rfl⟩
  · have same : s.setLine false = s := by rw [State.setLine, ← high]
    simp only [exec, execPowerOnReset, high, Bool.false_eq_true, if_false, same]
  · simp only [exec, execLineResetRelease, held, if_true]

/-! ### The state of the first image -/

/-- A first sample raises SUPPLY/801 with its news below the level of P21, and then the fault of its temperature (R137, R143). -/
theorem sampledFirst_faults {s : State} (fresh : s.energy.conserve = false) (mv c : Int) :
    let low := decide (saturateVs mv < lowLevel (s.cfg.param 21))
    (sampledFirst s mv c).faults = raises (chosen low .supply801 ++ tempCodes c)
      { s.faults with news := s.faults.news ||| if low then 0x0200 else 0 } := by
  by_cases low : saturateVs mv < lowLevel (s.cfg.param 21) <;>
    simp [sampledFirst, lowCodes, conserveNews, chosen, fresh, low]

section Before

variable (s : State) (cause : ResetCause) (br1 br0 above : Bool) (mv c : Int)

/-- The configuration that start-up puts in force. -/
def loadedConfig : ConfigRecord := s.cutWrite.1.config.loadConfig.1

/-- The first sample finds a low storage voltage (R143). -/
def startsLow : Bool := decide (saturateVs mv < lowLevel ((loadedConfig s).param 21))

/-- The faults of start-up before the first image, in their order. -/
def ownCodes : List FaultCode :=
  startCodes s.cutWrite.1.config.loadConfig.2 s.cutWrite.1.bankA.checked.2 s.cutWrite.1.bankB.checked.2
    (tableCheck textInRange s.cutWrite.1.texts).2 (tableCheck Glyph.inRange s.cutWrite.1.glyphs).2 (startsLow s mv)
    (decide (saturateTemp c < -10)) (decide (55 < saturateTemp c))

theorem beforeImage_faults : (beforeImage s cause br1 br0 above mv c).faults =
    raises (ownCodes s mv c) ⟨0, none, none, 0, if startsLow s mv then 0x0200 else 0, cause⟩ := by
  have before := raises_addNews (flashCodes s.cutWrite.1) (.afterReset cause) (if startsLow s mv then 0x0200 else 0)
  refine (sampledFirst_faults (s := readFlash (awake s cause br1 br0 above)) rfl mv c).trans ?_
  refine (congrArg (raises (chosen (startsLow s mv) .supply801 ++ tempCodes c)) before.symm).trans ?_
  rw [← raises_append, tempCodes_eq, FaultUnit.afterReset]
  simp only [ownCodes, startCodes, flashCodes, List.append_assoc, BitVec.ofNat_eq_ofNat, BitVec.zero_or]

/-- The part is ready for its first image where the tables are canonical. -/
theorem beforeImage_ready (sound : s.cutWrite.1.sound) : Ready (beforeImage s cause br1 br0 above mv c) := by
  refine ⟨PanelInvariants.imageSound_of_blank rfl rfl rfl rfl, ConfigurationAndEstimate.loadConfig_inRange _,
    ⟨fun code g h => ?_, nofun⟩, ?_⟩
  · have entry : (if (tableCheck Glyph.inRange s.cutWrite.1.glyphs).1.contains code then
        (tableRead s.cutWrite.1.glyphs code).contents else none) = some g := h
    split at entry
    case isFalse => cases entry
    case isTrue listed =>
      obtain ⟨a, read, good⟩ := (mem_tableCheck_iff sound.2).mp (List.contains_iff_mem.mp listed)
      rw [read] at entry
      cases entry
      exact good
  · exact Bool.or_eq_false_iff.mpr ⟨bne_self_eq_false _, bne_self_eq_false _⟩

/-- The rows of the first image: row 1 with its message, and EMPTY rows (R76, R92). -/
theorem beforeImage_rows : (beforeImage s cause br1 br0 above mv c).evaluate.length = (loadedConfig s).param 2 - 2 ∧
    ∀ k x, (beforeImage s cause br1 br0 above mv c).evaluate[k]? = some x →
      x = if k = 0 then .message .timeUnknown else .empty := by
  refine ⟨(evaluate_length _).trans List.length_replicate, fun k x h => ?_⟩
  have row : (beforeImage s cause br1 br0 above mv c).evaluate[k]? =
      (beforeImage s cause br1 br0 above mv c).composer.rows[k]?.map fun _ => if k = 0 then .message .timeUnknown else .empty :=
    messageRows_row ..
  rw [row, Option.map_eq_some_iff] at h
  obtain ⟨_, -, e⟩ := h
  exact e.symm

/-- Every tile is UNKNOWN with nothing counted (R134). -/
theorem beforeImage_glass {tiles : TileMap} (same : SameGlass (beforeImage s cause br1 br0 above mv c).tiles tiles) :
    ∀ x ∈ tiles.tiles, x.shown = none ∧ x.ghost = 0 ∧ x.clearDue = false := by
  intro x mem
  have glass : x.glass ∈
      (List.replicate ((loadedConfig s).param 1 * (loadedConfig s).param 2) (Tile.unknown none)).map Tile.glass :=
    (same.glass : _ = List.map _ _) ▸ List.mem_map_of_mem mem
  rw [List.map_replicate] at glass
  have e := List.eq_of_mem_replicate glass
  simp only [Tile.glass, Tile.unknown, Prod.mk.injEq] at e
  exact e

end Before

/-- A failed record's fault is the first record (R174, R194). -/
theorem ownCodes_first {s : State} (fails : s.cutWrite.1.config.loadConfig.2 = true) (mv c : Int) (codes : List FaultCode)
    {f : FaultUnit} (empty : f.first = none) : (raises (ownCodes s mv c ++ codes) f).first = some ⟨.store101, none⟩ := by
  obtain ⟨tail, own⟩ : ∃ tail, ownCodes s mv c = .store101 :: tail := by
    rw [ownCodes, fails]
    exact ⟨_, rfl⟩
  rw [own]
  exact raises_first (tail ++ codes) (by simp only [FaultUnit.raise, empty, Option.none_or])

/-- Settles O58: start-up's two halves around the first image, its record by record reading of flash, and its faults. -/
theorem resetsRunStartUp : Obligations.ResetsRunStartUp := by
  intro s c br1 br0 above mv celsius cause reset
  have run := (exec_reset reset).trans (congrArg Host.Outcome.next (startUp_eq (s.setLine false) cause br1 br0 above mv celsius))
  obtain ⟨faults, composer, tiles, image, ⟨-, codes, content, raised⟩, rows, glass, elapsed, paints⟩ :=
    firstImage_spec (beforeImage (s.setLine false) cause br1 br0 above mv celsius)
  have ready := beforeImage_ready (s.setLine false) cause br1 br0 above mv celsius
  have rows' := beforeImage_rows (s.setLine false) cause br1 br0 above mv celsius
  have glass' := beforeImage_glass (s.setLine false) cause br1 br0 above mv celsius glass
  obtain ⟨f, before⟩ : ∃ f : FaultUnit, f = ⟨0, none, none, 0, if startsLow s mv then 0x0200 else 0, cause⟩ :=
    ⟨_, rfl⟩
  have faults' : faults = raises (ownCodes s mv celsius ++ codes) f := by
    rw [image, beforeImage_faults] at raised
    rw [raises_append, before]
    exact raised
  rw [← rows] at rows'
  rw [image] at run paints
  have total {x : FaultCode} (other : x.cls ≠ .content) :
      (ownCodes s mv celsius ++ codes).count x = (ownCodes s mv celsius).count x := by
    rw [List.count_append, TimeSetting.count_of_content content other, Nat.add_zero]
  obtain ⟨config, bankA, bankB, texts, glyphs, supply, cold, hot⟩ := count_startCodes s.cutWrite.1.config.loadConfig.2
    s.cutWrite.1.bankA.checked.2 s.cutWrite.1.bankB.checked.2 (tableCheck textInRange s.cutWrite.1.texts).2
    (tableCheck Glyph.inRange s.cutWrite.1.glyphs).2 (startsLow s mv) (decide (saturateTemp celsius < -10))
    (decide (55 < saturateTemp celsius))
  have latched {x : FaultCode} (raisedOnce : (ownCodes s mv celsius).count x ≠ 0) : faults.isLatched x.cls = true := by
    rw [faults']
    exact raises_latched (List.mem_append_left _ (List.count_pos_iff.mp (Nat.pos_of_ne_zero raisedOnce))) _
  refine ⟨_, run, rfl, rfl, ?resetCause, rfl, fun idle => PowerLoss.cutWrite_idle idle, rfl, rfl, rfl, rfl,
    (checked_record s.cutWrite.1.bankA).1, (checked_record s.cutWrite.1.bankB).1, rfl, fun erased => ?erased,
    fun x good inRange => ?good, fun bad => ?bad, fun i => ?bank, fun sound => ?tables, glass.wt, glass.ht, elapsed, glass',
    rfl, rfl, rfl, rfl, ?duty, ?ownFaults, ?length, rows'.2, fun sound => ?paints, rfl, rfl, rfl, rfl, rfl, rfl, rfl, rfl⟩
  case resetCause =>
    refine (congrArg FaultUnit.cause faults').trans ((Samples.foldl_raise_cause _ _ _).trans ?_)
    rw [before]
  case erased =>
    have erased : s.cutWrite.1.config = .erased := erased
    show s.cutWrite.1.config.loadConfig.1 = _
    rw [erased]
    rfl
  case good =>
    have good : s.cutWrite.1.config = .good x := good
    show s.cutWrite.1.config.loadConfig.1 = _
    rw [good]
    exact loadConfig_good inRange
  case bad =>
    have fails : s.cutWrite.1.config.loadConfig.2 = true := (loadConfig_fails_iff _).mpr bad
    refine ⟨loadConfig_failed fails, latched (x := .store101) ?_, ?_⟩
    · rw [ownCodes, config, if_pos fails]
      exact Nat.one_ne_zero
    · refine (congrArg FaultUnit.first faults').trans (ownCodes_first fails mv celsius codes ?_)
      rw [before]
  case bank =>
    have latchedBank (fails : (s.cutWrite.1.bank i).checked.2 = true) : faults.isLatched .store = true := by
      cases i with
      | a => exact latched (x := .store102) (by rw [ownCodes, bankA, if_pos (by exact fails)]; exact Nat.one_ne_zero)
      | b => exact latched (x := .store103) (by rw [ownCodes, bankB, if_pos (by exact fails)]; exact Nat.one_ne_zero)
    obtain ⟨-, free, failed, valid⟩ := checked_record (s.cutWrite.1.bank i)
    have failing := checked_fails_iff (s.cutWrite.1.bank i)
    intro stored found empty
    have same : found = (s.cutWrite.1.bank i).checked.1 := by cases i <;> rfl
    rw [same]
    refine ⟨free, fun bad => ?_, fun d n k m header => ⟨valid d n k m header, fun fails => ?_⟩⟩
    · exact ⟨failed (failing.mpr (.inl bad)), latchedBank (failing.mpr (.inl bad))⟩
    · have bad := failing.mpr (.inr ⟨d, n, k, m, header, fails⟩)
      exact ⟨failed bad, latchedBank bad⟩
  case tables =>
    have sound : s.cutWrite.1.sound := sound
    refine ⟨fun k => mem_tableCheck_iff sound.1, fun k => mem_tableCheck_iff sound.2, ?_⟩
    rintro (⟨k, stored, absent⟩ | ⟨k, stored, absent⟩)
    · exact latched (x := .store104) (by rw [ownCodes, texts]; exact tableCheck_failed stored absent)
    · exact latched (x := .store105) (by rw [ownCodes, glyphs]; exact tableCheck_failed stored absent)
  case duty =>
    show (if _ = _ then 0 else ConfigRecord.duty _ false _) = 0
    split <;> rfl
  case length => exact rows'.1.trans (congrArg (· - 2) glass.ht.symm)
  case paints => exact fun i within => paints (ready sound) i (by rw [← glass.wt, ← glass.ht]; exact within)
  case ownFaults =>
    intro vs temp low failsConfig failsBank failing
    have below : startsLow s mv = decide low := by
      rw [startsLow, Samples.lowLevel_eq]
      rfl
    have failsRecord := loadConfig_fails_iff s.cutWrite.1.config
    have failsA := checked_fails_iff s.cutWrite.1.bankA
    have failsB := checked_fails_iff s.cutWrite.1.bankB
    refine ⟨below, below, ownCodes s mv celsius ++ codes, ?_, fun x mem => ?_, fun fails => ?_, fun passes => ?_,
      fun fails => ?_, fun passes => ?_, fun fails => ?_, fun passes => ?_, ?_, ?_, ?_, ?_, ?_⟩
    · refine faults'.trans ?_
      rw [before, below]
      simp only [decide_eq_true_eq]
      rfl
    · rcases List.mem_append.mp mem with own | late
      · exact .inr (mem_startCodes _ _ _ _ _ _ _ _ own)
      · exact .inl (content x late)
    · exact (total (x := .store101) (by decide)).trans (config.trans (if_pos (failsRecord.mpr fails)))
    · exact (total (x := .store101) (by decide)).trans (config.trans (if_neg (mt failsRecord.mp passes)))
    · exact (total (x := .store102) (by decide)).trans (bankA.trans (if_pos (failsA.mpr fails)))
    · exact (total (x := .store102) (by decide)).trans (bankA.trans (if_neg (mt failsA.mp passes)))
    · exact (total (x := .store103) (by decide)).trans (bankB.trans (if_pos (failsB.mpr fails)))
    · exact (total (x := .store103) (by decide)).trans (bankB.trans (if_neg (mt failsB.mp passes)))
    · exact (total (x := .store104) (by decide)).trans (texts.trans (tableCheck_fails ..))
    · exact (total (x := .store105) (by decide)).trans (glyphs.trans (tableCheck_fails ..))
    · exact (total (x := .supply801) (by decide)).trans (supply.trans (if_congr (by rw [below, decide_eq_true_eq]) rfl rfl))
    · exact (total (x := .temp401) (by decide)).trans (cold.trans (if_congr decide_eq_true_iff rfl rfl))
    · exact (total (x := .temp402) (by decide)).trans (hot.trans (if_congr decide_eq_true_iff rfl rfl))

end Sys2Proof.StartUpRun
end
